-- ==== Sys2Proof/Word.lean ====
section
/-! DEFINITION. The machine's words: 8-bit bytes and 32-bit registers (spec 00_scope.md R4, R5). -/

namespace Sys2Proof

/-- A byte: "Every byte is 8 bits" (R4). -/
abbrev Byte := BitVec 8

/-- A register value or a command word: "Every register is 32 bits wide" (R4). -/
abbrev Word := BitVec 32

end Sys2Proof
end

