-- ==== Sys2Proof/Machine/Errors.lean ====
section
/-! DEFINITION. The errors a command can raise and their numbers (spec 60_exceptions.md R240, R241). -/

namespace Sys2Proof.Machine

/-- `raise E(d0, d1)` of R8 and R240: one constructor per error, with its details. An error whose EDET1 is
always 0 carries only EDET0. -/
inductive CmdError where
  | insufficientData (needed present : Nat)
  | unexpectedTag (got expected : Nat)
  | lengthMismatch (declared actual : Nat)
  | checksumMismatch (computed received : Nat)
  | missingHdlcFlags (bits : Nat)
  | unknownEnumValue (value : Nat)
  | lengthOverflow (value limit : Nat)
  | argumentError (operand value : Nat)
  | outputOverflow (bytes room : Nat)
  | depthExceeded (depth limit : Nat)
  | rangeError (which cursor : Nat)
  | illegalCommand (word : Nat)
  | addressError (bytes upper : Nat)
  | malformed (value : Nat)
  deriving DecidableEq, Repr

/-- The ECODE column of R240. -/
def CmdError.code : CmdError → Byte
  | .insufficientData _ _ => 1
  | .unexpectedTag _ _ => 2
  | .lengthMismatch _ _ => 3
  | .checksumMismatch _ _ => 4
  | .missingHdlcFlags _ => 5
  | .unknownEnumValue _ => 6
  | .lengthOverflow _ _ => 7
  | .argumentError _ _ => 8
  | .outputOverflow _ _ => 9
  | .depthExceeded _ _ => 10
  | .rangeError _ _ => 11
  | .illegalCommand _ => 12
  | .addressError _ _ => 13
  | .malformed _ => 14

/-- The EDET0 column of R240, "d0 mod 2^32" (R241). -/
def CmdError.det0 : CmdError → Word
  | .insufficientData n _ => BitVec.ofNat 32 n
  | .unexpectedTag got _ => BitVec.ofNat 32 got
  | .lengthMismatch declared _ => BitVec.ofNat 32 declared
  | .checksumMismatch computed _ => BitVec.ofNat 32 computed
  | .missingHdlcFlags bits => BitVec.ofNat 32 bits
  | .unknownEnumValue v => BitVec.ofNat 32 v
  | .lengthOverflow v _ => BitVec.ofNat 32 v
  | .argumentError operand _ => BitVec.ofNat 32 operand
  | .outputOverflow n _ => BitVec.ofNat 32 n
  | .depthExceeded d _ => BitVec.ofNat 32 d
  | .rangeError which _ => BitVec.ofNat 32 which
  | .illegalCommand w => BitVec.ofNat 32 w
  | .addressError n _ => BitVec.ofNat 32 n
  | .malformed v => BitVec.ofNat 32 v

/-- The EDET1 column of R240, "d1 mod 2^32" (R241). -/
def CmdError.det1 : CmdError → Word
  | .insufficientData _ present => BitVec.ofNat 32 present
  | .unexpectedTag _ expected => BitVec.ofNat 32 expected
  | .lengthMismatch _ actual => BitVec.ofNat 32 actual
  | .checksumMismatch _ received => BitVec.ofNat 32 received
  | .missingHdlcFlags _ => 0
  | .unknownEnumValue _ => 0
  | .lengthOverflow _ limit => BitVec.ofNat 32 limit
  | .argumentError _ value => BitVec.ofNat 32 value
  | .outputOverflow _ room => BitVec.ofNat 32 room
  | .depthExceeded _ limit => BitVec.ofNat 32 limit
  | .rangeError _ cursor => BitVec.ofNat 32 cursor
  | .illegalCommand _ => 0
  | .addressError _ upper => BitVec.ofNat 32 upper
  | .malformed _ => 0

end Sys2Proof.Machine
end

