-- ==== Sys2Proof/Config.lean ====
section
/-! DEFINITION. What an implementation fixes (spec 00_scope.md R3) and the values the spec leaves free
(spec 93_implementation_defined.md I10, I11, I15). -/

namespace Sys2Proof

/-- The parameters of R3 that the block's behaviour depends on. `BASE` is an argument of `Machine.windowOffset` (its
range is `legalBase`), `TAG_MAX` and the reset value of `MAXDEPTH` are fixed by R3, and `LATENCY` is the place of the
engine's turns in `State.inputs` (log entries 3 to 5). -/
structure Params where
  /-- `HW_ID`, any 32-bit value. -/
  hwId     : Word
  /-- `IBUF_SIZE`, 2049..4096. -/
  ibufSize : Nat
  /-- `OBUF_SIZE`, 2049..4096. -/
  obufSize : Nat
  deriving DecidableEq, Repr

/-- The default column of R3. -/
def Params.default : Params := { hwId := 0x44430001#32, ibufSize := 4096, obufSize := 4096 }

/-- The legal values column of R3. -/
def Params.legal (p : Params) : Bool :=
  2049 ≤ p.ibufSize && p.ibufSize ≤ 4096 && 2049 ≤ p.obufSize && p.obufSize ≤ 4096

/-- R3, R60: the legal values of `BASE`, "any 0x4000-aligned address". -/
def legalBase (base : Nat) : Bool := base % 0x4000 == 0

/-- FREE VALUE (R42, R270, I10): the byte that offset `i` of IBUF holds from the `n`-th power-on until it is
written. -/
opaque Config.ibufPowerOn : (n : Nat) → (i : Nat) → Byte

/-- FREE VALUE (R42, R270, I10): the byte that offset `i` of OBUF holds from the `n`-th power-on until it is
written. -/
opaque Config.obufPowerOn : (n : Nat) → (i : Nat) → Byte

/-- FREE VALUE (R34, R275, I11): what the `n`-th unspecified read returns. -/
opaque Config.busyRead : (n : Nat) → Word

/-- FREE VALUE (R245, I15): `IRQ_LINE`, the platform's interrupt line that IRQ drives. -/
opaque Config.irqLine : Nat

end Sys2Proof
end

