-- ==== Sys2Proof/Machine/State.lean ====
section
/-! DEFINITION. The machine's state as plain data (spec 10_state.md), the host's bus accesses (20_memory.md), the
reset state (R42), and the reasons a step can stop. -/

namespace Sys2Proof.Machine

/-- The contents of a byte buffer: (offset, byte) pairs at strictly rising offsets. A listed offset has been
written since power-on; an unlisted one holds no written byte (log entry 1). -/
abbrev Memory := List Host.Cell

/-- What an unlisted offset holds: no written byte. A read of it is the free value of R270 (log entry 1). -/
def Memory.unlisted : Option Byte := none

/-- The width of a host bus access: the 8, 16 and 32 bits that R62 and R63 name. DESIGN CHOICE: the bus carries no
other width, so an access of, say, 64 bits is not in the model (log entry 23). -/
inductive Width where
  | w8
  | w16
  | w32
  deriving DecidableEq, Repr

/-- An address inside the bus window: the `a` of R60, 0x0000..0x3FFF. -/
abbrev Offset := BitVec 14

/-- One host bus access at a window offset (R20, R60). An 8-bit or 16-bit write uses the low bits of `data`. -/
inductive BusAccess where
  | read (width : Width) (a : Offset)
  | write (width : Width) (a : Offset) (data : Word)
  deriving DecidableEq, Repr

/-- What happens next in the machine's one total order of R71, chosen outside the block: the host's next bus
access, the engine's turn (its place in the list is LATENCY, R3, R38, R279), or a power-on (R270). -/
inductive Input where
  | host (access : BusAccess)
  | engine
  | powerOn
  deriving DecidableEq, Repr

/-- Every piece of state of R21, R31, R32 and R36, and four fields of the model's own (`inputs`, `reads`, `draws`,
`powerUps`). STATUS.BUSY is `pending.isSome` and IRQ is computed (log entries 6 and 7). -/
structure State where
  /-- R3's parameters; no step changes them (log entry 4). -/
  params   : Params
  /-- CTRL.IE (R23). -/
  ie       : Bool
  /-- CTRL.MAXDEPTH (R23). -/
  maxdepth : Byte
  /-- STATUS.DONE (R24). -/
  done     : Bool
  /-- STATUS.ERR (R24). -/
  err      : Bool
  /-- STATUS.OVR (R24). -/
  ovr      : Bool
  /-- STATUS.ECODE (R24). -/
  ecode    : Byte
  /-- CMD's read-back: the last accepted word (R25). -/
  cmd      : Word
  /-- `pending` of R36: the latched word of the command in flight. BUSY = 1 exactly when there is one. -/
  pending  : Option Word
  /-- ICUR (R26). -/
  icur     : Word
  /-- IEND (R26). -/
  iend     : Word
  /-- OCUR (R26). -/
  ocur     : Word
  /-- ICNT (R27). -/
  icnt     : Word
  /-- OCNT (R27). -/
  ocnt     : Word
  /-- ARG0 (R28). -/
  arg0     : Word
  /-- ARG1 (R28). -/
  arg1     : Word
  /-- ARG2 (R28). -/
  arg2     : Word
  /-- RES0 (R29). -/
  res0     : Word
  /-- RES1 (R29). -/
  res1     : Word
  /-- RES2 (R29). -/
  res2     : Word
  /-- RES3 (R29). -/
  res3     : Word
  /-- EDET0 (R30). -/
  edet0    : Word
  /-- EDET1 (R30). -/
  edet1    : Word
  /-- IBUF (R31). -/
  ibuf     : Memory
  /-- OBUF (R32). -/
  obuf     : Memory
  /-- MODEL: what happens next, oldest first; an empty list gives every turn to the engine (log entry 3). -/
  inputs   : List Input
  /-- MODEL: what the host's reads returned, newest first (log entry 17). -/
  reads    : List Word
  /-- MODEL: how many unspecified reads there were; numbers the free values of R34 (log entry 2). -/
  draws    : Nat
  /-- MODEL: how many power-ons there were; numbers the free values of R270 (log entry 14). -/
  powerUps : Nat
  deriving DecidableEq, Repr

/-- No step of this machine faults: "There are no traps" (60_exceptions.md), "every bus access completes"
(R243), every error completes its command with a next state (R242), and "No behaviour in this spec is `stuck`"
(93_implementation_defined.md). So the type has no constructor (log entry 12). -/
inductive Fault where
  deriving DecidableEq, Repr

/-- The only refusal is that of an instruction without a meaning. -/
inductive Refusal where
  /-- Raised by `exec`'s arm for an instruction that has no meaning yet; safe. No arm raises it now. -/
  | notModelled (mnemonic : String)
  deriving DecidableEq, Repr

/-- R42 and R270: the state right after power-on, with R3's default parameters. -/
def State.reset : State where
  params   := Params.default
  ie       := false
  maxdepth := 0x20#8
  done     := false
  err      := false
  ovr      := false
  ecode    := 0#8
  cmd      := 0#32
  pending  := none
  icur     := 0#32
  iend     := 0#32
  ocur     := 0#32
  icnt     := 0#32
  ocnt     := 0#32
  arg0     := 0#32
  arg1     := 0#32
  arg2     := 0#32
  res0     := 0#32
  res1     := 0#32
  res2     := 0#32
  res3     := 0#32
  edet0    := 0#32
  edet1    := 0#32
  ibuf     := []
  obuf     := []
  inputs   := []
  reads    := []
  draws    := 0
  powerUps := 0

end Sys2Proof.Machine
end

