-- ==== Sys2Proof/Machine/Flags.lean ====
section
/-! DEFINITION. The status and control fields: the words CTRL and STATUS read as (spec 10_state.md R23, R24), the
flag updates of acceptance (R37), success (R38), error (60_exceptions.md R242) and write-1-to-clear (R24), and
the IRQ line (R245). -/

namespace Sys2Proof.Machine

/-- STATUS.BUSY (R24): "`pending`: the latched 32-bit command word, valid while BUSY = 1" (R36). -/
def State.busy (s : State) : Bool := s.pending.isSome

/-- STATUS as a read returns it (R24): the reserved bits read 0. -/
def State.statusWord (s : State) : Word :=
  BitVec.ofNat 32 (s.busy.toNat + 2 * s.done.toNat + 4 * s.err.toNat + 8 * s.ovr.toNat + 256 * s.ecode.toNat)

/-- CTRL as a read returns it (R23): SRST and the reserved bits read 0. -/
def State.ctrlWord (s : State) : Word := BitVec.ofNat 32 (s.ie.toNat + 256 * s.maxdepth.toNat)

/-- R245: "IRQ = CTRL.IE and STATUS.DONE". -/
def State.irq (s : State) : Bool := s.ie && s.done

/-- The platform lines the block asserts: IRQ, on the platform's `IRQ_LINE` (R245, I15). -/
def State.assertedLines (s : State) : List Nat := if s.irq then [Config.irqLine] else []

/-- R33: a dropped write sets OVR. -/
def setOvr (s : State) : State := { s with ovr := true }

/-- R24: a STATUS write clears each of DONE, ERR and OVR whose bit of `v` is 1. -/
def clearStatus (v : Word) (s : State) : State :=
  { s with
    done := s.done && !v.getLsbD 1
    err := s.err && !v.getLsbD 2
    ovr := s.ovr && !v.getLsbD 3 }

/-- R37: acceptance of the command word `w`, one atomic update. -/
def accept (w : Word) (s : State) : State :=
  { s with
    pending := some w
    cmd := w
    done := false
    err := false
    ecode := 0 }

/-- The STATUS line of R38's commit. -/
def statusSuccess (s : State) : State := { s with ecode := 0, err := false, done := true, pending := none }

/-- The STATUS line of R242's error completion. -/
def statusError (code : Byte) (s : State) : State :=
  { s with ecode := code, err := true, done := true, pending := none }

end Sys2Proof.Machine
end

