-- ==== Sys2Proof/Machine/Ops.lean ====
section
/-! DEFINITION. The operations every command shares: the buffers (spec 10_state.md R31, R32), reset (R42,
70_reset_and_hazards.md R270, R271), the pre-checks (30_encoding.md R85), and the two completions of a command:
the commit (R38) and the error completion (60_exceptions.md R242), which is this machine's only exception. -/

namespace Sys2Proof.Machine

/-- The canonical form of a buffer's contents: offsets strictly rising. -/
abbrev Memory.wf (m : Memory) : Prop := m.Pairwise (fun x y => x.1 < y.1)

/-- Every listed offset lies inside a buffer of `size` bytes. -/
abbrev Memory.within (size : Nat) (m : Memory) : Prop := ∀ x ∈ m, x.1 < size

/-- The byte written at offset `k`, if one was. -/
def Memory.lookup : Memory → Nat → Option Byte
  | [], _ => Memory.unlisted
  | (a, b) :: rest, k => if a = k then some b else Memory.lookup rest k

/-- The list `bs` as cells at offsets `a`, `a+1`, … -/
def cellsAt (a : Nat) : List Byte → Memory
  | [] => []
  | b :: bs => (a, b) :: cellsAt (a + 1) bs

/-- `MemWrite(·, a, len(bs), bs)` of R8: the list at offsets a, a+1, …; every other offset as before. -/
def Memory.storeBytes (m : Memory) (a : Nat) (bs : List Byte) : Memory :=
  match bs with
  | [] => m
  | _ :: _ =>
    m.filter (fun c => decide (c.1 < a)) ++ cellsAt a bs ++ m.filter (fun c => decide (a + bs.length ≤ c.1))

/-- The byte at offset `i` of IBUF: the last byte written there, or its power-on value (R42, R270). -/
def State.ibufByte (s : State) (i : Nat) : Byte := (s.ibuf.lookup i).getD (Config.ibufPowerOn s.powerUps i)

/-- The byte at offset `i` of OBUF: the last byte written there, or its power-on value (R42, R270). -/
def State.obufByte (s : State) (i : Nat) : Byte := (s.obuf.lookup i).getD (Config.obufPowerOn s.powerUps i)

/-- R271: soft reset. Every register takes its R42 value, a command in flight is discarded, the buffers keep
their contents. -/
def softReset (s : State) : State :=
  { State.reset with
    params := s.params
    ibuf := s.ibuf
    obuf := s.obuf
    inputs := s.inputs
    reads := s.reads
    draws := s.draws
    powerUps := s.powerUps }

/-- R270: power-on reset. As a soft reset, and every buffer byte is a new draw. -/
def powerOnReset (s : State) : State :=
  { softReset s with
    ibuf := []
    obuf := []
    powerUps := s.powerUps + 1 }

/-- `avail` of R8 and R85: the input bytes a command may read. -/
def State.avail (s : State) : Nat := s.iend.toNat - s.icur.toNat

/-- `InBytes(0, avail)` of R8: the input region IBUF[ICUR, IEND). -/
def State.input (s : State) : List Byte := (List.range' s.icur.toNat s.avail).map s.ibufByte

/-- The room left in OBUF: `OBUF_SIZE - reg[OCUR]` (R38). -/
def State.room (s : State) : Nat := s.params.obufSize - s.ocur.toNat

/-- What a command's rule produces on success (R38): OUT, C and r0..r3. -/
structure Result where
  out      : List Byte := []
  consumed : Nat := 0
  r0       : Word := 0
  r1       : Word := 0
  r2       : Word := 0
  r3       : Word := 0
  deriving DecidableEq, Repr

/-- R85: the pre-checks, in their order; `none` when the cursors are legal. -/
def preCheck (s : State) : Option CmdError :=
  if s.iend.toNat > s.params.ibufSize then some (.rangeError 1 s.iend.toNat)
  else if s.icur.toNat > s.iend.toNat then some (.rangeError 0 s.icur.toNat)
  else if s.ocur.toNat > s.params.obufSize then some (.rangeError 2 s.ocur.toNat)
  else none

/-- R242: error completion, one atomic update; nothing else changes. -/
def failWith (e : CmdError) (s : State) : State :=
  statusError e.code
    { s with
      res0 := 0
      res1 := 0
      res2 := 0
      res3 := 0
      icnt := 0
      ocnt := 0
      edet0 := e.det0
      edet1 := e.det1 }

/-- R38: the commit, one atomic update. -/
def commit (r : Result) (s : State) : State :=
  statusSuccess
    { s with
      obuf := s.obuf.storeBytes s.ocur.toNat r.out
      icur := s.icur + BitVec.ofNat 32 r.consumed
      ocur := s.ocur + BitVec.ofNat 32 r.out.length
      icnt := BitVec.ofNat 32 r.consumed
      ocnt := BitVec.ofNat 32 r.out.length
      res0 := r.r0
      res1 := r.r1
      res2 := r.r2
      res3 := r.r3
      edet0 := 0
      edet1 := 0 }

/-- R38: complete a command whose rule gave `r`; the OutputOverflow check comes last (R244). -/
def complete (r : Except CmdError Result) (s : State) : State :=
  match r with
  | .error e => failWith e s
  | .ok res =>
    if res.out.length > s.room then failWith (.outputOverflow res.out.length s.room) s
    else commit res s

/-- R38, R244: the engine's one step for a legal command whose rule is `rule`: the pre-checks, the rule, the
completion. -/
def runCommand (rule : Except CmdError Result) (s : State) : Host.Outcome State Fault Refusal :=
  match preCheck s with
  | some e => .next (failWith e s)
  | none => .next (complete rule s)

end Sys2Proof.Machine
end

