-- ==== Sys2Proof/Machine/Bus.lean ====
section
/-! DEFINITION. The host's side: the register map (spec 10_state.md R21), the bus window (20_memory.md R60 to
R64), reads and writes while busy (R33, R34) and the side effects of writes (R68). -/

namespace Sys2Proof.Machine

/-- R60: the window offset of a bus address, for a block at `base`; `none` when the block does not answer. There is no
block at an address R3 does not allow (log entry 5). -/
def windowOffset (base addr : Nat) : Option Offset :=
  if legalBase base ∧ base ≤ addr ∧ addr < base + 0x4000 then some (BitVec.ofNat 14 (addr - base)) else none

/-- The 18 registers of R21. -/
inductive Reg where
  | id
  | ctrl
  | status
  | cmd
  | icur
  | iend
  | ocur
  | icnt
  | ocnt
  | arg0
  | arg1
  | arg2
  | res0
  | res1
  | res2
  | res3
  | edet0
  | edet1
  deriving DecidableEq, Repr

/-- R21's offset column. -/
def Reg.offset : Reg → Nat
  | .id => 0x000
  | .ctrl => 0x004
  | .status => 0x008
  | .cmd => 0x00C
  | .icur => 0x010
  | .iend => 0x014
  | .ocur => 0x018
  | .icnt => 0x01C
  | .ocnt => 0x020
  | .arg0 => 0x024
  | .arg1 => 0x028
  | .arg2 => 0x02C
  | .res0 => 0x030
  | .res1 => 0x034
  | .res2 => 0x038
  | .res3 => 0x03C
  | .edet0 => 0x040
  | .edet1 => 0x044

/-- R21's rows. -/
def Reg.all : List Reg :=
  [.id, .ctrl, .status, .cmd, .icur, .iend, .ocur, .icnt, .ocnt, .arg0, .arg1, .arg2, .res0, .res1, .res2, .res3,
   .edet0, .edet1]

/-- R21: the register at an offset of the register region; `none` for "Any offset … not listed". -/
def Reg.at? (a : Nat) : Option Reg := Reg.all.find? (fun r => r.offset == a)

/-- What a register reads as while BUSY = 0 (R21 to R30). -/
def readReg (r : Reg) (s : State) : Word :=
  match r with
  | .id => s.params.hwId
  | .ctrl => s.ctrlWord
  | .status => s.statusWord
  | .cmd => s.cmd
  | .icur => s.icur
  | .iend => s.iend
  | .ocur => s.ocur
  | .icnt => s.icnt
  | .ocnt => s.ocnt
  | .arg0 => s.arg0
  | .arg1 => s.arg1
  | .arg2 => s.arg2
  | .res0 => s.res0
  | .res1 => s.res1
  | .res2 => s.res2
  | .res3 => s.res3
  | .edet0 => s.edet0
  | .edet1 => s.edet1

/-- R34: the registers whose value a read returns even while BUSY = 1. -/
def Reg.readableBusy : Reg → Bool
  | .id | .ctrl | .status | .cmd => true
  | .icur | .iend | .ocur | .icnt | .ocnt | .arg0 | .arg1 | .arg2 | .res0 | .res1 | .res2 | .res3 | .edet0
  | .edet1 => false

/-- R33: perform `write` while BUSY = 0; while BUSY = 1 drop it and set OVR. -/
def unlessBusy (write : State → State) (s : State) : State := if s.busy then setOvr s else write s

/-- R23: the CTRL fields a write with SRST = 0 stores. -/
def writeCtrl (v : Word) (s : State) : State := { s with ie := v.getLsbD 0, maxdepth := v.extractLsb' 8 8 }

/-- A 32-bit host write of `v` to a register (R21 to R30, R33, R68, R271). -/
def writeReg (r : Reg) (v : Word) (s : State) : State :=
  match r with
  | .id => s
  | .ctrl => if v.getLsbD 1 then softReset s else unlessBusy (writeCtrl v) s
  | .status => clearStatus v s
  | .cmd => unlessBusy (accept v) s
  | .icur => unlessBusy (fun s => { s with icur := v }) s
  | .iend => unlessBusy (fun s => { s with iend := v }) s
  | .ocur => unlessBusy (fun s => { s with ocur := v }) s
  | .icnt => s
  | .ocnt => s
  | .arg0 => unlessBusy (fun s => { s with arg0 := v }) s
  | .arg1 => unlessBusy (fun s => { s with arg1 := v }) s
  | .arg2 => unlessBusy (fun s => { s with arg2 := v }) s
  | .res0 => s
  | .res1 => s
  | .res2 => s
  | .res3 => s
  | .edet0 => s
  | .edet1 => s

/-- The bytes an access moves (R62, R63). -/
def Width.bytes : Width → Nat
  | .w8 => 1
  | .w16 => 2
  | .w32 => 4

/-- R60's regions of the window; a buffer region carries the byte offset into the buffer. -/
inductive Region where
  | registers (offset : Nat)
  | ibufWindow (i : Nat)
  | obufWindow (i : Nat)
  | reserved
  deriving DecidableEq, Repr

/-- R60's table. -/
def regionOf (a : Offset) : Region :=
  match a.toNat / 0x1000 with
  | 0 => .registers a.toNat
  | 1 => .ibufWindow (a.toNat - 0x1000)
  | 2 => .obufWindow (a.toNat - 0x2000)
  | _ => .reserved

/-- R63: "8-bit accesses at any address, 16-bit accesses at even addresses and 32-bit accesses at multiples of
4". -/
def aligned (w : Width) (a : Offset) : Bool := a.toNat % w.bytes == 0

/-- R64: the value with `bytes` in its lanes, the first in bits 7:0. -/
def lanes : List Byte → Nat
  | [] => 0
  | b :: bs => b.toNat + 256 * lanes bs

/-- R64: the lanes of a write's data, `n` of them, bits 7:0 first. -/
def lanesOf (v : Word) (n : Nat) : List Byte := (List.range n).map (fun j => v.extractLsb' (8 * j) 8)

/-- R60, R64: a read of `n` bytes of a buffer of `size` bytes from offset `i`: "A buffer-window address at or
past the buffer's size reads 0". -/
def readLanes (byte : Nat → Byte) (size i n : Nat) : Word :=
  BitVec.ofNat 32 (lanes ((List.range n).map (fun j => if i + j < size then byte (i + j) else 0)))

/-- R34: the value an unspecified read returns: the next free value. -/
def drawnWord (s : State) : Word := Config.busyRead s.draws

/-- R34: an unspecified read uses up one free value. -/
def countDraw (s : State) : State := { s with draws := s.draws + 1 }

/-- A value the host has read (log entry 17). -/
def logRead (v : Word) (s : State) : State := { s with reads := v :: s.reads }

/-- An aligned buffer read (R60, R63, R64); while BUSY = 1 its bytes inside the buffer are unspecified (R34). -/
def readBuffer (byte : Nat → Byte) (size i n : Nat) (s : State) : State :=
  if s.busy ∧ i < size then
    countDraw (logRead (readLanes (fun k => (drawnWord s).extractLsb' (8 * (k - i)) 8) size i n) s)
  else
    logRead (readLanes byte size i n) s

/-- A host read (R21, R34, R60 to R64). It changes nothing a command or a later read depends on (R68). -/
def busRead (w : Width) (a : Offset) (s : State) : State :=
  match regionOf a with
  | .registers o =>
    match if w = .w32 then Reg.at? o else none with
    | none => logRead 0 s
    | some r => if s.busy ∧ ¬ r.readableBusy then countDraw (logRead (drawnWord s) s) else logRead (readReg r s) s
  | .ibufWindow i => if aligned w a then readBuffer s.ibufByte s.params.ibufSize i w.bytes s else logRead 0 s
  | .obufWindow i => if aligned w a then readBuffer s.obufByte s.params.obufSize i w.bytes s else logRead 0 s
  | .reserved => logRead 0 s

/-- R60: the lanes of a buffer write that fall inside the buffer. -/
def lanesInside (size i n : Nat) (v : Word) : List Byte := (lanesOf v n).take (size - i)

/-- A host write (R21, R33, R60 to R64, R68). Ignored writes (unlisted offset, wrong width or alignment, past
the buffer's size, reserved region) set no status bit (R62, R63, 92_eei_decisions.md D6). -/
def busWrite (w : Width) (a : Offset) (v : Word) (s : State) : State :=
  match regionOf a with
  | .registers o =>
    match if w = .w32 then Reg.at? o else none with
    | none => s
    | some r => writeReg r v s
  | .ibufWindow i =>
    if aligned w a ∧ i < s.params.ibufSize then
      unlessBusy (fun s => { s with ibuf := s.ibuf.storeBytes i (lanesInside s.params.ibufSize i w.bytes v) }) s
    else s
  | .obufWindow i =>
    if aligned w a ∧ i < s.params.obufSize then
      unlessBusy (fun s => { s with obuf := s.obuf.storeBytes i (lanesInside s.params.obufSize i w.bytes v) }) s
    else s
  | .reserved => s

/-- One host bus access (R20, R67). -/
def busAccess (acc : BusAccess) (s : State) : State :=
  match acc with
  | .read w a => busRead w a s
  | .write w a v => busWrite w a v s

/-- The platform's view of R60: a host access at a bus address, for a block at `base`, joins what the block has
to do next; an access the block does not answer leaves it alone. -/
def State.issueRead (base : Nat) (w : Width) (addr : Nat) (s : State) : State :=
  match windowOffset base addr with
  | some a => { s with inputs := s.inputs ++ [.host (.read w a)] }
  | none => s

/-- As `State.issueRead`, for a write. -/
def State.issueWrite (base : Nat) (w : Width) (addr : Nat) (v : Word) (s : State) : State :=
  match windowOffset base addr with
  | some a => { s with inputs := s.inputs ++ [.host (.write w a v)] }
  | none => s

end Sys2Proof.Machine
end

