-- ==== Sys2Proof/Syntax.lean ====
section
/-! DEFINITION. The commands, one constructor per row of spec/opcode_table.json (spec 30_encoding.md R82), with
the operand fields of R86. -/

namespace Sys2Proof

/-- The role of an HDLC address (43_hdlc.md R180): the bytes do not show it (R183), the command gives it. -/
inductive Role where
  | client
  | server
  deriving DecidableEq, Repr

/-- R82's commands. A flag is a Bool, a role a `Role`, an A-XDR tag a byte, and a count of bytes (`tl`, `n`) a
natural number whose range `Instr.wf` checks. -/
inductive Instr where
  /-- NOP (R230). -/
  | nop
  /-- CRC.HCS (R104); `l` = FL[0], the output byte order. -/
  | crcHcs (l : Bool)
  /-- CRC.FCS (R105); `l` = FL[0]. -/
  | crcFcs (l : Bool)
  /-- BER.ENC (R121); `tl` = FL[2:0], the tag length in bytes. -/
  | berEnc (tl : Nat)
  /-- BER.DEC (R122); `tl` = FL[2:0], `e` = FL[3] expect a tag, `p` = FL[4] prefix mode. -/
  | berDec (tl : Nat) (e p : Bool)
  /-- AX.LENENC (R142). -/
  | axLenenc
  /-- AX.LENDEC (R143). -/
  | axLendec
  /-- AX.ENC (R152); `tag` = IMM[7:0]. -/
  | axEnc (tag : Byte)
  /-- AX.DEC (R155); `e` = FL[0] expect a tag, `tag` = IMM[7:0]. -/
  | axDec (e : Bool) (tag : Byte)
  /-- AX.SKIP (R160). -/
  | axSkip
  /-- AX.OPT (R162). -/
  | axOpt
  /-- AX.FIXED (R163); `n` = IMM[15:0], the attribute's length in bytes. -/
  | axFixed (n : Nat)
  /-- AX.VAR (R164); `t` = FL[0], terminal position. -/
  | axVar (t : Bool)
  /-- AX.PEEK (R165). -/
  | axPeek
  /-- H.ADDRENC (R182). -/
  | hAddrenc
  /-- H.ADDRDEC (R183); `r` = FL[0], the role. -/
  | hAddrdec (r : Role)
  /-- H.FMTENC (R186). -/
  | hFmtenc
  /-- H.FMTDEC (R187). -/
  | hFmtdec
  /-- H.CTLENC (R192). -/
  | hCtlenc
  /-- H.CTLDEC (R193). -/
  | hCtldec
  /-- H.FRMENC (R198). -/
  | hFrmenc
  /-- H.FRMDEC (R199); `dr` = FL[0] and `sr` = FL[1], the roles of destination and source. -/
  | hFrmdec (dr sr : Role)
  deriving DecidableEq, Repr

end Sys2Proof
end

