-- ==== Sys2Proof/Machine/Operands.lean ====
section
/-! DEFINITION. The pseudocode primitives of spec 00_scope.md R7 and R8 that command rules are written with, and
the operand fields the rules test (30_encoding.md R86). A rule reads the input region as the list `x` of its
bytes, so `avail` is `x.length`. -/

namespace Sys2Proof.Machine

/-- A step of a rule that raises `e` when `p` holds (R8 `raise`). -/
def raiseIf (p : Prop) [Decidable p] (e : CmdError) : Except CmdError Unit := if p then .error e else .ok ()

/-- `need(n)` (R8): "if n > avail then raise InsufficientData(n, avail)". -/
def need (x : List Byte) (n : Nat) : Except CmdError Unit := raiseIf (n > x.length) (.insufficientData n x.length)

/-- `In(k)` (R8); rules use it only for k < avail. -/
def byteAt (x : List Byte) (k : Nat) : Byte := x.getD k 0

/-- `InBytes(k, n)` (R8); rules use it only for k + n <= avail. -/
def bytesAt (x : List Byte) (k n : Nat) : List Byte := (x.drop k).take n

/-- `BE_n(v)` (R7): the n-byte big-endian list of v mod 2^(8n). -/
def beBytes : (n : Nat) → (v : Nat) → List Byte
  | 0, _ => []
  | n + 1, v => BitVec.ofNat 8 (v / 256 ^ n) :: beBytes n v

/-- `fromBE(x)` (R7): the unsigned big-endian value of a byte list. -/
def fromBE (x : List Byte) : Nat := x.foldl (fun acc b => 256 * acc + b.toNat) 0

/-- `rev8(b)` (R7): "rev8(b)[i] = b[7-i]". -/
def rev8 (b : Byte) : Byte :=
  BitVec.ofNat 8 (128 * (b.getLsbD 0).toNat + 64 * (b.getLsbD 1).toNat + 32 * (b.getLsbD 2).toNat
    + 16 * (b.getLsbD 3).toNat + 8 * (b.getLsbD 4).toNat + 4 * (b.getLsbD 5).toNat + 2 * (b.getLsbD 6).toNat
    + (b.getLsbD 7).toNat)

/-- A value of `w` bytes as a 32-bit register value: `sext_32` when signed, `zext_32` otherwise (R7, R151). -/
def extend32 (signed : Bool) (w v : Nat) : Word :=
  if signed then (BitVec.ofNat (8 * w) v).signExtend 32 else BitVec.ofNat 32 v

/-- Bits hi..lo of a register value as a number, `len` = hi - lo + 1 (R5). -/
def bitsOf (v : Word) (lo len : Nat) : Nat := (v.extractLsb' lo len).toNat

/-- The FL byte of BER.ENC and BER.DEC, which ArgumentError(3, FL) reports (R86). -/
def berFl (tl : Nat) (e p : Bool) : Nat := tl + 8 * e.toNat + 16 * p.toNat

end Sys2Proof.Machine
end

