-- ==== Sys2Proof/Machine/Axdr.lean ====
section
/-! DEFINITION. The A-XDR length and data codec: AX.LENENC to AX.PEEK (spec 42_axdr.md). -/

namespace Sys2Proof.Machine

/-- R142: "the least n in 1..4 with v < 2^(8n)", for a 32-bit v. -/
def lenBytes (v : Nat) : Nat :=
  if v < 2 ^ 8 then 1 else if v < 2 ^ 16 then 2 else if v < 2 ^ 24 then 3 else 4

/-- R142: `axlen(v)`, the A-XDR length prefix of a 32-bit v (R140). -/
def axlen (v : Nat) : List Byte :=
  if v < 128 then [BitVec.ofNat 8 v]
  else (0x80#8 ||| BitVec.ofNat 8 (lenBytes v)) :: beBytes (lenBytes v) v

/-- R143: `lendec(k)`, the length at input offset k and the bytes it takes. -/
def lendec (x : List Byte) (k : Nat) : Except CmdError (Nat × Nat) := do
  need x (k + 1)
  let b := byteAt x k
  if b.toNat < 0x80 then
    .ok (b.toNat, 1)
  else
    let n := (b.extractLsb' 0 7).toNat
    raiseIf (n = 0) (.malformed b.toNat)
    raiseIf (n > 4) (.lengthOverflow n 4)
    need x (k + 1 + n)
    .ok (fromBE (bytesAt x (k + 1) n), 1 + n)

/-- R150: the types of a data item. -/
inductive AxType where
  | null
  | array
  | struct
  | bool
  | int32
  | uint32
  | octets
  | vstring
  | int8
  | int16
  | uint8
  | uint16
  | datetime
  deriving DecidableEq, Repr

/-- R150: the type of a tag; "Every other tag … is unknown to the block". -/
def AxType.ofTag (tag : Byte) : Option AxType :=
  match tag.toNat with
  | 0 => some .null
  | 1 => some .array
  | 2 => some .struct
  | 3 => some .bool
  | 5 => some .int32
  | 6 => some .uint32
  | 9 => some .octets
  | 10 => some .vstring
  | 15 => some .int8
  | 16 => some .int16
  | 17 => some .uint8
  | 18 => some .uint16
  | 25 => some .datetime
  | _ => none

/-- R151: whether the 32-bit pattern `a` is a value that an integer of `w` bytes can represent. -/
def intAccepts (signed : Bool) (w : Nat) (a : Word) : Bool :=
  if signed then (-(2 ^ (8 * w - 1) : Int) ≤ a.toInt) && (a.toInt < (2 ^ (8 * w - 1) : Int))
  else a.toNat < 2 ^ (8 * w)

/-- A parsed item (R156): "the tag, the value, the body bytes to emit, the offset just past what it parsed, a
container flag and the raw boolean byte". -/
structure Item where
  tag       : Byte
  value     : Word
  body      : List Byte
  next      : Nat
  container : Bool
  raw       : Byte
  deriving DecidableEq, Repr

/-- R156: the integer tags' part of `item(k)`. -/
def intItem (x : List Byte) (k : Nat) (t : Byte) (signed : Bool) (w : Nat) : Except CmdError Item := do
  need x (k + 1 + w)
  .ok { tag := t, value := extend32 signed w (fromBE (bytesAt x (k + 1) w)), body := [], next := k + 1 + w
        container := false, raw := 0 }

/-- R156: the string tags' part of `item(k)`. -/
def stringItem (x : List Byte) (k : Nat) (t : Byte) : Except CmdError Item := do
  let (len, n) ← lendec x (k + 1)
  need x (k + 1 + n + len)
  .ok { tag := t, value := BitVec.ofNat 32 len, body := bytesAt x (k + 1 + n) len, next := k + 1 + n + len
        container := false, raw := 0 }

/-- R156: the container tags' part of `item(k)`; only the header (R157). -/
def containerItem (x : List Byte) (k : Nat) (t : Byte) : Except CmdError Item := do
  let (count, n) ← lendec x (k + 1)
  .ok { tag := t, value := BitVec.ofNat 32 count, body := [], next := k + 1 + n, container := true, raw := 0 }

/-- R156: `item(k)`, the item parser. -/
def item (x : List Byte) (k : Nat) : Except CmdError Item := do
  need x (k + 1)
  let t := byteAt x k
  match AxType.ofTag t with
  | some .null => .ok { tag := t, value := 0, body := [], next := k + 1, container := false, raw := 0 }
  | some .bool =>
    need x (k + 2)
    let raw := byteAt x (k + 1)
    .ok { tag := t, value := if raw = 0 then 0 else 1, body := [], next := k + 2, container := false, raw := raw }
  | some .int8 => intItem x k t true 1
  | some .uint8 => intItem x k t false 1
  | some .int16 => intItem x k t true 2
  | some .uint16 => intItem x k t false 2
  | some .int32 => intItem x k t true 4
  | some .uint32 => intItem x k t false 4
  | some .octets => stringItem x k t
  | some .vstring => stringItem x k t
  | some .array => containerItem x k t
  | some .struct => containerItem x k t
  | some .datetime =>
    need x (k + 13)
    .ok { tag := t, value := 12, body := bytesAt x (k + 1) 12, next := k + 13, container := false, raw := 0 }
  | none => .error (.unknownEnumValue t.toNat)

/-- R142: the rule of AX.LENENC. -/
def lenencRule (arg0 : Word) : Except CmdError Result :=
  let out := axlen arg0.toNat
  .ok { out := out, r0 := BitVec.ofNat 32 out.length }

/-- R143: the rule of AX.LENDEC. -/
def lendecRule (x : List Byte) : Except CmdError Result := do
  let (v, k) ← lendec x 0
  .ok { consumed := k, r0 := BitVec.ofNat 32 v, r1 := BitVec.ofNat 32 k }

/-- R152: the integer tags' part of AX.ENC, with the value check of R151. -/
def encInt (t : Byte) (signed : Bool) (w : Nat) (a : Word) : Except CmdError Result := do
  raiseIf (intAccepts signed w a = false) (.argumentError 0 a.toNat)
  .ok { out := t :: beBytes w a.toNat, r0 := t.setWidth 32 }

/-- R152: the string tags' part of AX.ENC. -/
def encString (t : Byte) (a : Word) (x : List Byte) : Except CmdError Result := do
  need x a.toNat
  .ok { out := t :: (axlen a.toNat ++ bytesAt x 0 a.toNat), consumed := a.toNat, r0 := t.setWidth 32 }

/-- R152: the container tags' part of AX.ENC; only the header (R157). -/
def encContainer (t : Byte) (a : Word) : Except CmdError Result :=
  .ok { out := t :: axlen a.toNat, r0 := t.setWidth 32 }

/-- R152: the rule of AX.ENC on the value `a` = ARG0 and the input `x`. -/
def axEncRule (t : Byte) (a : Word) (x : List Byte) : Except CmdError Result :=
  match AxType.ofTag t with
  | some .null => .ok { out := [t], r0 := t.setWidth 32 }
  | some .bool => do
    raiseIf (a.toNat > 1) (.argumentError 0 a.toNat)
    .ok { out := [t, a.setWidth 8], r0 := t.setWidth 32 }
  | some .int8 => encInt t true 1 a
  | some .int16 => encInt t true 2 a
  | some .uint8 => encInt t false 1 a
  | some .uint16 => encInt t false 2 a
  | some .int32 => encInt t true 4 a
  | some .uint32 => encInt t false 4 a
  | some .octets => encString t a x
  | some .vstring => encString t a x
  | some .array => encContainer t a
  | some .struct => encContainer t a
  | some .datetime => do
    need x 12
    .ok { out := t :: bytesAt x 0 12, consumed := 12, r0 := t.setWidth 32 }
  | none => .error (.unknownEnumValue t.toNat)

/-- R155: the rule of AX.DEC. "TAG is ignored when E = 0" (R86). -/
def axDecRule (e : Bool) (tag : Byte) (x : List Byte) : Except CmdError Result := do
  need x 1
  raiseIf (e = true ∧ byteAt x 0 ≠ tag) (.unexpectedTag (byteAt x 0).toNat tag.toNat)
  let it ← item x 0
  .ok { out := it.body, consumed := it.next, r0 := it.tag.setWidth 32, r1 := it.value, r2 := it.raw.setWidth 32 }

/-- The walk of R160 so far: the offset, `maxd` and `nodes`. -/
structure Walk where
  next  : Nat
  maxd  : Nat
  nodes : Nat
  deriving DecidableEq, Repr

/-- R160: `repeat n times: k' <- walk(k', d)`, the walk of `n` items one after another at depth `d`. The first
argument is fuel. Every item takes at least one byte, so with fuel ≥ avail - k the fuel runs out only when no
input is left, where `item(k)` raises InsufficientData(k + 1, avail); the fuel's end raises that (log entry 13). -/
def walkItems (x : List Byte) (limit : Nat) : (fuel n d : Nat) → Walk → Except CmdError Walk
  | _, 0, _, w => .ok w
  | 0, _ + 1, d, w =>
    if d > limit then .error (.depthExceeded d limit) else .error (.insufficientData (w.next + 1) x.length)
  | fuel + 1, n + 1, d, w =>
    if d > limit then .error (.depthExceeded d limit)
    else do
      let it ← item x w.next
      let seen : Walk := { next := it.next, maxd := max w.maxd d, nodes := w.nodes + 1 }
      let below ← if it.container then walkItems x limit fuel it.value.toNat (d + 1) seen else .ok seen
      walkItems x limit fuel n d below

/-- R160: the rule of AX.SKIP: `walk(0, 1)`. -/
def skipRule (maxdepth : Byte) (x : List Byte) : Except CmdError Result := do
  let w ← walkItems x maxdepth.toNat x.length 1 1 { next := 0, maxd := 0, nodes := 0 }
  .ok { consumed := w.next, r0 := BitVec.ofNat 32 w.next, r1 := BitVec.ofNat 32 w.maxd
        r2 := BitVec.ofNat 32 w.nodes }

/-- R162: the rule of AX.OPT. -/
def optRule (x : List Byte) : Except CmdError Result := do
  need x 1
  let b := byteAt x 0
  raiseIf (b.toNat > 1) (.unknownEnumValue b.toNat)
  .ok { consumed := 1, r0 := b.setWidth 32 }

/-- R163: the rule of AX.FIXED. -/
def fixedRule (n : Nat) (x : List Byte) : Except CmdError Result := do
  need x n
  .ok { out := bytesAt x 0 n, consumed := n, r0 := BitVec.ofNat 32 n }

/-- R164: the rule of AX.VAR. -/
def varRule (t : Bool) (x : List Byte) : Except CmdError Result :=
  if t then
    .ok { out := x, consumed := x.length, r0 := BitVec.ofNat 32 x.length }
  else do
    let (len, k) ← lendec x 0
    need x (k + len)
    .ok { out := bytesAt x k len, consumed := k + len, r0 := BitVec.ofNat 32 len }

/-- R165: the rule of AX.PEEK. -/
def peekRule (x : List Byte) : Except CmdError Result := do
  need x 1
  .ok { r0 := (byteAt x 0).setWidth 32 }

/-- AX.LENENC (R142). -/
def execAxLenenc (s : State) : Host.Outcome State Fault Refusal := runCommand (lenencRule s.arg0) s

/-- AX.LENDEC (R143). -/
def execAxLendec (s : State) : Host.Outcome State Fault Refusal := runCommand (lendecRule s.input) s

/-- AX.ENC (R152). -/
def execAxEnc (tag : Byte) (s : State) : Host.Outcome State Fault Refusal :=
  runCommand (axEncRule tag s.arg0 s.input) s

/-- AX.DEC (R155). -/
def execAxDec (e : Bool) (tag : Byte) (s : State) : Host.Outcome State Fault Refusal :=
  runCommand (axDecRule e tag s.input) s

/-- AX.SKIP (R160). -/
def execAxSkip (s : State) : Host.Outcome State Fault Refusal := runCommand (skipRule s.maxdepth s.input) s

/-- AX.OPT (R162). -/
def execAxOpt (s : State) : Host.Outcome State Fault Refusal := runCommand (optRule s.input) s

/-- AX.FIXED (R163). -/
def execAxFixed (n : Nat) (s : State) : Host.Outcome State Fault Refusal := runCommand (fixedRule n s.input) s

/-- AX.VAR (R164). -/
def execAxVar (t : Bool) (s : State) : Host.Outcome State Fault Refusal := runCommand (varRule t s.input) s

/-- AX.PEEK (R165). -/
def execAxPeek (s : State) : Host.Outcome State Fault Refusal := runCommand (peekRule s.input) s

end Sys2Proof.Machine
end

