-- ==== Sys2Proof/Machine/Ber.lean ====
section
/-! DEFINITION. The BER tag-length codec: BER.ENC and BER.DEC (spec 41_ber.md). -/

namespace Sys2Proof.Machine

/-- R121: the rule of BER.ENC on the tag value `arg0` and the data `x`. -/
def berEncRule (tl : Nat) (arg0 : Word) (x : List Byte) : Except CmdError Result := do
  raiseIf (tl < 1 ∨ tl > 4) (.argumentError 3 (berFl tl false false))
  raiseIf (arg0.toNat ≥ 2 ^ (8 * tl)) (.argumentError 0 arg0.toNat)
  if x.length = 0 then
    .ok {}
  else
    raiseIf (x.length > 255) (.lengthOverflow x.length 255)
    .ok { out := beBytes tl arg0.toNat ++ [BitVec.ofNat 8 x.length] ++ x
          consumed := x.length
          r0 := BitVec.ofNat 32 x.length }

/-- R122: the rule of BER.DEC on the expected tag `arg0` and the input `x`. -/
def berDecRule (tl : Nat) (e p : Bool) (arg0 : Word) (x : List Byte) : Except CmdError Result := do
  raiseIf (tl < 1 ∨ tl > 4) (.argumentError 3 (berFl tl e p))
  raiseIf (e = true ∧ arg0.toNat ≥ 2 ^ (8 * tl)) (.argumentError 0 arg0.toNat)
  need x (tl + 1)
  let tag := fromBE (bytesAt x 0 tl)
  let len := (byteAt x tl).toNat
  raiseIf (e = true ∧ tag ≠ arg0.toNat) (.unexpectedTag tag arg0.toNat)
  let rem := x.length - tl - 1
  raiseIf (p = false ∧ rem ≠ len) (.lengthMismatch len rem)
  raiseIf (p = true ∧ rem < len) (.insufficientData (tl + 1 + len) x.length)
  .ok { out := bytesAt x (tl + 1) len
        consumed := tl + 1 + len
        r0 := BitVec.ofNat 32 tag
        r1 := BitVec.ofNat 32 len
        r2 := BitVec.ofNat 32 tl }

/-- BER.ENC (R121). -/
def execBerEnc (tl : Nat) (s : State) : Host.Outcome State Fault Refusal :=
  runCommand (berEncRule tl s.arg0 s.input) s

/-- BER.DEC (R122). -/
def execBerDec (tl : Nat) (e p : Bool) (s : State) : Host.Outcome State Fault Refusal :=
  runCommand (berDecRule tl e p s.arg0 s.input) s

end Sys2Proof.Machine
end

