-- ==== Sys2Proof/WellFormed.lean ====
section
/-! DEFINITION. Which commands have an encoding: the counts fit their fields (spec 30_encoding.md R86). -/

namespace Sys2Proof

/-- Every count fits its field of R86: TL has three bits (0, 5, 6 and 7 are legal bits and give ArgumentError
when the command runs), N has sixteen. The other fields fit by their types. -/
def Instr.wf : Instr → Bool
  | .nop => true
  | .crcHcs _ => true
  | .crcFcs _ => true
  | .berEnc tl => tl < 8
  | .berDec tl _ _ => tl < 8
  | .axLenenc => true
  | .axLendec => true
  | .axEnc _ => true
  | .axDec _ _ => true
  | .axSkip => true
  | .axOpt => true
  | .axFixed n => n < 65536
  | .axVar _ => true
  | .axPeek => true
  | .hAddrenc => true
  | .hAddrdec _ => true
  | .hFmtenc => true
  | .hFmtdec => true
  | .hCtlenc => true
  | .hCtldec => true
  | .hFrmenc => true
  | .hFrmdec _ _ => true

end Sys2Proof
end

