-- ==== Sys2Proof/Decode.lean ====
section
/-! DEFINITION. The command word's format (spec 30_encoding.md R80), the opcode map (R82), the decoder (R83,
R84) and the encoder. A command is always one 32-bit word (R81), so the decoder takes a word and is total. -/

namespace Sys2Proof

/-- OP = w[7:0] (R80, R84). -/
def opField (w : Word) : BitVec 8 := w.extractLsb' 0 8

/-- FL = w[15:8] (R80, R84). -/
def flField (w : Word) : BitVec 8 := w.extractLsb' 8 8

/-- IMM = w[31:16] (R80, R84). -/
def immField (w : Word) : BitVec 16 := w.extractLsb' 16 16

/-- The word with these three fields (R80). -/
def packWord (imm : BitVec 16) (fl op : BitVec 8) : Word :=
  (imm.setWidth 32 <<< 16) ||| (fl.setWidth 32 <<< 8) ||| op.setWidth 32

/-- A role field: "0 = client, 1 = server" (R86). -/
def Role.ofBit (b : Bool) : Role := if b then .server else .client

/-- The bit of a role (R86). -/
def Role.bit : Role → Bool
  | .client => false
  | .server => true

/-- Why a word is illegal (R83). Every reason completes the command with IllegalCommand. -/
inductive DecodeError where
  /-- "OP is not in the table of rule R82". -/
  | reservedOp (op : BitVec 8)
  /-- "a FL bit that rule R82 does not assign for that OP is 1". -/
  | reservedFl (fl : BitVec 8)
  /-- "an IMM bit that rule R82 does not assign for that OP is 1". -/
  | reservedImm (imm : BitVec 16)
  deriving DecidableEq, Repr

/-- One row of R82: the opcode, the FL and IMM bits it assigns, and the command its fields select. -/
structure OpRow where
  op      : BitVec 8
  flBits  : BitVec 8
  immBits : BitVec 16
  build   : (fl : BitVec 8) → (imm : BitVec 16) → Instr

/-- TL = FL[2:0] (R86). -/
def tlField (fl : BitVec 8) : Nat := (fl.extractLsb' 0 3).toNat

/-- R82: the family 0x0, NOP and CRC. -/
def rowsCrc : List OpRow := [
  ⟨0x00, 0x00, 0x0000, fun _ _ => .nop⟩,
  ⟨0x01, 0x01, 0x0000, fun fl _ => .crcHcs (fl.getLsbD 0)⟩,
  ⟨0x02, 0x01, 0x0000, fun fl _ => .crcFcs (fl.getLsbD 0)⟩]

/-- R82: the family 0x1, BER. -/
def rowsBer : List OpRow := [
  ⟨0x10, 0x07, 0x0000, fun fl _ => .berEnc (tlField fl)⟩,
  ⟨0x11, 0x1F, 0x0000, fun fl _ => .berDec (tlField fl) (fl.getLsbD 3) (fl.getLsbD 4)⟩]

/-- R82: the family 0x2, A-XDR. -/
def rowsAxdr : List OpRow := [
  ⟨0x20, 0x00, 0x0000, fun _ _ => .axLenenc⟩,
  ⟨0x21, 0x00, 0x0000, fun _ _ => .axLendec⟩,
  ⟨0x22, 0x00, 0x00FF, fun _ imm => .axEnc (imm.extractLsb' 0 8)⟩,
  ⟨0x23, 0x01, 0x00FF, fun fl imm => .axDec (fl.getLsbD 0) (imm.extractLsb' 0 8)⟩,
  ⟨0x24, 0x00, 0x0000, fun _ _ => .axSkip⟩,
  ⟨0x25, 0x00, 0x0000, fun _ _ => .axOpt⟩,
  ⟨0x26, 0x00, 0xFFFF, fun _ imm => .axFixed imm.toNat⟩,
  ⟨0x27, 0x01, 0x0000, fun fl _ => .axVar (fl.getLsbD 0)⟩,
  ⟨0x28, 0x00, 0x0000, fun _ _ => .axPeek⟩]

/-- R82: the family 0x3, HDLC. -/
def rowsHdlc : List OpRow := [
  ⟨0x30, 0x00, 0x0000, fun _ _ => .hAddrenc⟩,
  ⟨0x31, 0x01, 0x0000, fun fl _ => .hAddrdec (Role.ofBit (fl.getLsbD 0))⟩,
  ⟨0x32, 0x00, 0x0000, fun _ _ => .hFmtenc⟩,
  ⟨0x33, 0x00, 0x0000, fun _ _ => .hFmtdec⟩,
  ⟨0x34, 0x00, 0x0000, fun _ _ => .hCtlenc⟩,
  ⟨0x35, 0x00, 0x0000, fun _ _ => .hCtldec⟩,
  ⟨0x36, 0x00, 0x0000, fun _ _ => .hFrmenc⟩,
  ⟨0x37, 0x03, 0x0000, fun fl _ => .hFrmdec (Role.ofBit (fl.getLsbD 0)) (Role.ofBit (fl.getLsbD 1))⟩]

/-- R82: the opcode map. "Every other OP value is reserved". -/
def opcodeMap : List OpRow := rowsCrc ++ rowsBer ++ rowsAxdr ++ rowsHdlc

/-- R83's mask of a row: OP and every bit the row does not assign. -/
def OpRow.mask (r : OpRow) : Word := packWord (~~~r.immBits) (~~~r.flBits) 0xFF

/-- R83's match of a row: its OP, every other fixed bit 0. -/
def OpRow.fixed (r : OpRow) : Word := packWord 0 0 r.op

/-- R84: decode a command word; a word R83 calls illegal is rejected by name. -/
def decodeWord (w : Word) : Except DecodeError Instr :=
  match opcodeMap.find? (fun r => r.op == opField w) with
  | none => .error (.reservedOp (opField w))
  | some r =>
    if flField w &&& ~~~r.flBits ≠ 0 then .error (.reservedFl (flField w))
    else if immField w &&& ~~~r.immBits ≠ 0 then .error (.reservedImm (immField w))
    else .ok (r.build (flField w) (immField w))

/-- The OP of a command (R82). -/
def Instr.op : Instr → BitVec 8
  | .nop => 0x00
  | .crcHcs _ => 0x01
  | .crcFcs _ => 0x02
  | .berEnc _ => 0x10
  | .berDec _ _ _ => 0x11
  | .axLenenc => 0x20
  | .axLendec => 0x21
  | .axEnc _ => 0x22
  | .axDec _ _ => 0x23
  | .axSkip => 0x24
  | .axOpt => 0x25
  | .axFixed _ => 0x26
  | .axVar _ => 0x27
  | .axPeek => 0x28
  | .hAddrenc => 0x30
  | .hAddrdec _ => 0x31
  | .hFmtenc => 0x32
  | .hFmtdec => 0x33
  | .hCtlenc => 0x34
  | .hCtldec => 0x35
  | .hFrmenc => 0x36
  | .hFrmdec _ _ => 0x37

/-- The FL byte of a command (R82, R86). -/
def Instr.fl : Instr → BitVec 8
  | .crcHcs l => BitVec.ofNat 8 l.toNat
  | .crcFcs l => BitVec.ofNat 8 l.toNat
  | .berEnc tl => BitVec.ofNat 8 tl
  | .berDec tl e p => BitVec.ofNat 8 (tl + 8 * e.toNat + 16 * p.toNat)
  | .axDec e _ => BitVec.ofNat 8 e.toNat
  | .axVar t => BitVec.ofNat 8 t.toNat
  | .hAddrdec r => BitVec.ofNat 8 r.bit.toNat
  | .hFrmdec dr sr => BitVec.ofNat 8 (dr.bit.toNat + 2 * sr.bit.toNat)
  | .nop | .axLenenc | .axLendec | .axEnc _ | .axSkip | .axOpt | .axFixed _ | .axPeek | .hAddrenc | .hFmtenc
  | .hFmtdec | .hCtlenc | .hCtldec | .hFrmenc => 0

/-- The IMM field of a command (R82, R86). -/
def Instr.imm : Instr → BitVec 16
  | .axEnc tag => tag.setWidth 16
  | .axDec _ tag => tag.setWidth 16
  | .axFixed n => BitVec.ofNat 16 n
  | .nop | .crcHcs _ | .crcFcs _ | .berEnc _ | .berDec _ _ _ | .axLenenc | .axLendec | .axSkip | .axOpt | .axVar _
  | .axPeek | .hAddrenc | .hAddrdec _ | .hFmtenc | .hFmtdec | .hCtlenc | .hCtldec | .hFrmenc | .hFrmdec _ _ => 0

/-- The command word of a well-formed command (R80, R82): every unassigned bit is 0. -/
def encode (i : Instr) : Word := packWord i.imm i.fl i.op

/-- The command that the decoder reads from an opcode-table word `w` of `nbits` bits: a command word is written
to CMD whole, so its bits are the table's bits (R80, R81), and bits above `nbits` are 0. -/
def decodeTableWord (nbits w : Nat) : Option Instr :=
  (decodeWord (BitVec.ofNat 32 (w % 2 ^ nbits))).toOption

end Sys2Proof
end

