-- ==== Sys2Proof/Machine/Crc.lean ====
section
/-! DEFINITION. The CRC-CCITT generator: CRC.HCS and CRC.FCS (spec 40_crc.md). -/

namespace Sys2Proof.Machine

/-- R100: "Polynomial `0x1021`". -/
def crcPoly : BitVec 16 := 0x1021#16

/-- R100: "initial value `0xFFFF`". -/
def crcInit : BitVec 16 := 0xFFFF#16

/-- R101: c_{k+1} from c_k. -/
def crcShift (c : BitVec 16) : BitVec 16 := if c.getLsbD 15 then (c <<< 1) ^^^ crcPoly else c <<< 1

/-- R101: T[i] = c_8, from c_0 = i << 8. -/
def crcEntry (i : Byte) : BitVec 16 :=
  crcShift (crcShift (crcShift (crcShift (crcShift (crcShift (crcShift (crcShift (i.setWidth 16 <<< 8))))))))

/-- R35, R101: the constant table T of 256 16-bit entries. `crcEntry i` is its entry i. -/
def crcTable : List (BitVec 16) := (List.range 256).map (fun i => crcEntry (BitVec.ofNat 8 i))

/-- R102: the shift register after one more byte. -/
def crcStep (r : BitVec 16) (b : Byte) : BitVec 16 :=
  (r <<< 8) ^^^ crcEntry (r.extractLsb' 8 8 ^^^ rev8 b)

/-- R102: the CRC value W of a byte list; each byte of r is reversed in place (90_conflicts.md C7). -/
def crcW (x : List Byte) : BitVec 16 :=
  let r := x.foldl crcStep crcInit
  (((rev8 (r.extractLsb' 8 8)).setWidth 16 <<< 8) ||| (rev8 (r.extractLsb' 0 8)).setWidth 16) ^^^ 0xFFFF#16

/-- R103: `crc16(x, L)`, the two bytes ready for transmission. -/
def crc16 (x : List Byte) (l : Bool) : List Byte :=
  let w := crcW x
  if l then [w.extractLsb' 0 8, w.extractLsb' 8 8] else [w.extractLsb' 8 8, w.extractLsb' 0 8]

/-- The rule of CRC.HCS (R104) and CRC.FCS (R105), which "compute the same function". -/
def crcRule (l : Bool) (x : List Byte) : Except CmdError Result :=
  let out := crc16 x l
  .ok { out := out, consumed := x.length, r0 := BitVec.ofNat 32 (fromBE out) }

/-- CRC.HCS (R104). -/
def execCrcHcs (l : Bool) (s : State) : Host.Outcome State Fault Refusal := runCommand (crcRule l s.input) s

/-- CRC.FCS (R105). -/
def execCrcFcs (l : Bool) (s : State) : Host.Outcome State Fault Refusal := runCommand (crcRule l s.input) s

end Sys2Proof.Machine
end

