-- ==== Sys2Proof/Machine/Hdlc.lean ====
section
/-! DEFINITION. The HDLC frame serializer and deserializer: H.ADDRENC to H.FRMDEC (spec 43_hdlc.md). -/

namespace Sys2Proof.Machine

/-- R181: an address byte, "shifted left by one"; `last` is the end-of-address marker in bit 0. -/
def addrByte (v : Nat) (last : Bool) : Byte := BitVec.ofNat 8 (2 * v + last.toNat)

/-- R182: `addrbytes(a, i)`, the bytes of the address descriptor `a` from ARGi. -/
def addrbytes (i : Nat) (a : Word) : Except CmdError (List Byte) := do
  raiseIf (bitsOf a 27 5 ≠ 0 ∨ bitsOf a 18 6 ≠ 0 ∨ a.getLsbD 7 = true) (.argumentError i a.toNat)
  let logical := bitsOf a 0 7
  let physical := bitsOf a 8 7
  match Role.ofBit (a.getLsbD 16), a.getLsbD 15, a.getLsbD 17 with
  | .client, false, false => .ok [addrByte logical true]
  | .client, true, _ => .error (.argumentError i a.toNat)
  | .client, false, true => .error (.argumentError i a.toNat)
  | .server, false, true => .error (.argumentError i a.toNat)
  | .server, false, false => .ok [addrByte logical true]
  | .server, true, false => .ok [addrByte logical false, addrByte physical true]
  | .server, true, true => .ok [0x00, addrByte logical false, 0x00, addrByte physical true]

/-- R180: the address descriptor of a decoded address. -/
def addrDescriptor (logical : Nat) (physical : Option Nat) (role : Role) (ext : Bool) (len : Nat) : Word :=
  BitVec.ofNat 32 (logical + 256 * physical.getD 0 + 2 ^ 15 * physical.isSome.toNat + 2 ^ 16 * role.bit.toNat
    + 2 ^ 17 * ext.toNat + 2 ^ 24 * len)

/-- R183: the scan "for the end-of-address LSB" at offset `k` of `b`, from its `i`-th byte on with `fuel` bytes
to go; `none` when no byte of the four has bit 0 set. -/
def addrScan (b : List Byte) (k : Nat) : (fuel i : Nat) → Except CmdError (Option Nat)
  | 0, _ => .ok none
  | fuel + 1, i =>
    if k + i ≥ b.length then .error (.insufficientData (k + i + 1) b.length)
    else if (byteAt b (k + i)).getLsbD 0 then .ok (some (i + 1))
    else addrScan b k fuel (i + 1)

/-- R183: `addrdec(B, k, end, role)` with end = len(B): the descriptor and the bytes the address takes. -/
def addrdec (b : List Byte) (k : Nat) (role : Role) : Except CmdError (Word × Nat) := do
  let found ← addrScan b k 4 0
  let high := fun j => (byteAt b (k + j)).toNat / 2
  match found with
  | none => .error (.addressError 4 0)
  | some n =>
    raiseIf (n = 3) (.addressError 3 0)
    raiseIf (role = .client ∧ n ≠ 1) (.addressError n 0)
    if n = 1 then
      .ok (addrDescriptor (high 0) none role false 1, 1)
    else if n = 2 then
      .ok (addrDescriptor (high 0) (some (high 1)) role false 2, 2)
    else
      raiseIf (byteAt b k ≠ 0 ∨ high 2 ≠ 0) (.addressError 4 1)
      .ok (addrDescriptor (high 1) (some (high 3)) role true 4, 4)

/-- R185: the format field: type 0b1010, the segmentation flag in bit 11, the frame length in bits 10:0. -/
def formatField (seg : Bool) (len : Nat) : Nat := 0xA000 + 2 ^ 11 * seg.toNat + len

/-- R188, R190: the five frame types. -/
inductive FrameType where
  | snrm
  | ua
  | disc
  | rr
  | info
  deriving DecidableEq, Repr

/-- R190: the TYPE field; 5..7 name no type. -/
def FrameType.ofCode : Nat → Option FrameType
  | 0 => some .snrm
  | 1 => some .ua
  | 2 => some .disc
  | 3 => some .rr
  | 4 => some .info
  | _ => none

/-- R190: the TYPE code of a frame type. -/
def FrameType.code : FrameType → Nat
  | .snrm => 0
  | .ua => 1
  | .disc => 2
  | .rr => 3
  | .info => 4

/-- R188: the control byte, the poll/final bit ORed in. -/
def controlByte (ty : FrameType) (ns nr : Nat) (pf : Bool) : Byte :=
  BitVec.ofNat 8 (match ty with
    | .snrm => 0x83
    | .ua => 0x63
    | .disc => 0x43
    | .rr => 0x01 + 32 * nr
    | .info => 2 * ns + 32 * nr) ||| BitVec.ofNat 8 (16 * pf.toNat)

/-- R191: whether a type may carry these sequence numbers. -/
def numbersFit (ty : FrameType) (ns nr : Nat) : Bool :=
  match ty with
  | .snrm | .ua | .disc => ns == 0 && nr == 0
  | .rr => ns == 0
  | .info => true

/-- R191: `ctlbyte(c, i)` and the type it found, for the control descriptor `c` from ARGi. -/
def ctlbyte (i : Nat) (c : Word) : Except CmdError (FrameType × Byte) := do
  raiseIf (c &&& 0xFFFF8888#32 ≠ 0) (.argumentError i c.toNat)
  let ns := bitsOf c 4 3
  let nr := bitsOf c 8 3
  match FrameType.ofCode (bitsOf c 0 3) with
  | none => .error (.argumentError i c.toNat)
  | some ty =>
    raiseIf (numbersFit ty ns nr = false) (.argumentError i c.toNat)
    .ok (ty, controlByte ty ns nr (c.getLsbD 12))

/-- R190: the control descriptor with SEG = 0 and LLCDIR = 0. -/
def controlDescriptor (ty : FrameType) (ns nr : Nat) (pf : Bool) : Word :=
  BitVec.ofNat 32 (ty.code + 16 * ns + 256 * nr + 2 ^ 12 * pf.toNat)

/-- R193: `ctldec(c)`: the type of the control byte and its descriptor. -/
def ctldec (c : Byte) : Except CmdError (FrameType × Word) :=
  let pf := c.getLsbD 4
  let nr := (c.extractLsb' 5 3).toNat
  if c.getLsbD 0 = false then
    .ok (.info, controlDescriptor .info (c.extractLsb' 1 3).toNat nr pf)
  else if (c.extractLsb' 0 4).toNat = 1 then
    .ok (.rr, controlDescriptor .rr 0 nr pf)
  else if c &&& 0xEF#8 = 0x83#8 then
    .ok (.snrm, controlDescriptor .snrm 0 0 pf)
  else if c &&& 0xEF#8 = 0x63#8 then
    .ok (.ua, controlDescriptor .ua 0 0 pf)
  else if c &&& 0xEF#8 = 0x43#8 then
    .ok (.disc, controlDescriptor .disc 0 0 pf)
  else
    .error (.unknownEnumValue c.toNat)

/-- R194: the flag byte. -/
def frameFlag : Byte := 0x7E#8

/-- R195: the LLC header "`E6 E6 00` for command". -/
def llcCommand : List Byte := [0xE6#8, 0xE6#8, 0x00#8]

/-- R195: the LLC header "`E7 E7 00` for response". -/
def llcResponse : List Byte := [0xE7#8, 0xE7#8, 0x00#8]

/-- R182: the rule of H.ADDRENC. -/
def addrencRule (arg0 : Word) : Except CmdError Result := do
  let out ← addrbytes 0 arg0
  .ok { out := out, r0 := (arg0 &&& 0x0003FFFF#32) ||| BitVec.ofNat 32 (2 ^ 24 * out.length) }

/-- R183: the rule of H.ADDRDEC. -/
def addrdecRule (r : Role) (x : List Byte) : Except CmdError Result := do
  let (d, n) ← addrdec x 0 r
  .ok { consumed := n, r0 := d }

/-- R186: the rule of H.FMTENC. -/
def fmtencRule (arg0 : Word) : Except CmdError Result := do
  raiseIf (bitsOf arg0 12 20 ≠ 0) (.argumentError 0 arg0.toNat)
  let f := formatField (arg0.getLsbD 11) (bitsOf arg0 0 11)
  .ok { out := beBytes 2 f, r0 := BitVec.ofNat 32 f }

/-- R187, R199: check a format field: its length and its segmentation flag. -/
def formatFields (f : Nat) : Except CmdError (Nat × Bool) := do
  raiseIf (f / 2 ^ 12 ≠ 0xA) (.malformed f)
  .ok (f % 2 ^ 11, f.testBit 11)

/-- R187: the rule of H.FMTDEC. -/
def fmtdecRule (x : List Byte) : Except CmdError Result := do
  need x 2
  let (len, seg) ← formatFields (fromBE (bytesAt x 0 2))
  .ok { consumed := 2, r0 := BitVec.ofNat 32 len, r1 := BitVec.ofNat 32 seg.toNat }

/-- R192: the rule of H.CTLENC. -/
def ctlencRule (arg0 : Word) : Except CmdError Result := do
  let (_, b) ← ctlbyte 0 arg0
  .ok { out := [b], r0 := b.setWidth 32 }

/-- R193: the rule of H.CTLDEC. -/
def ctldecRule (x : List Byte) : Except CmdError Result := do
  need x 1
  let (_, d) ← ctldec (byteAt x 0)
  .ok { consumed := 1, r0 := d }

/-- R197, R198: the information field of a frame to encode: an I-frame's LLC header and payload, a UA's input;
SNRM, DISC and RR take no input. `c` is ARG2. -/
def frameInfo (ty : FrameType) (c : Word) (x : List Byte) : Except CmdError (List Byte) :=
  match ty with
  | .info => .ok ((if c.getLsbD 14 then llcResponse else llcCommand) ++ x)
  | .ua => .ok x
  | .snrm | .disc | .rr => do
    raiseIf (x.length ≠ 0) (.argumentError 2 c.toNat)
    .ok []

/-- R196: the frame length field: 7 with an information field, 5 without, and the field lengths. -/
def frameLength (dst src info : List Byte) : Nat :=
  (if info.length > 0 then 7 else 5) + dst.length + src.length + info.length

/-- R198, steps 1 to 4: the body between the flags. -/
def frameBody (seg : Bool) (dst src : List Byte) (ctl : Byte) (info : List Byte) : List Byte :=
  let hdr := beBytes 2 (formatField seg (frameLength dst src info)) ++ dst ++ src ++ [ctl]
  let covered := if info.length > 0 then hdr ++ crc16 hdr false ++ info else hdr
  covered ++ crc16 covered false

/-- R198: the rule of H.FRMENC. -/
def frmencRule (arg0 arg1 arg2 : Word) (x : List Byte) : Except CmdError Result := do
  let dst ← addrbytes 0 arg0
  let src ← addrbytes 1 arg1
  let (ty, ctl) ← ctlbyte 2 arg2
  let info ← frameInfo ty arg2 x
  let flen := frameLength dst src info
  raiseIf (flen > 2047) (.lengthOverflow flen 2047)
  .ok { out := [frameFlag] ++ frameBody (arg2.getLsbD 13) dst src ctl info ++ [frameFlag]
        consumed := x.length
        r0 := BitVec.ofNat 32 flen
        r1 := if info.length > 0 then 1 else 0 }

/-- R199: the flags missing from `x`: bit 0 the opening flag, bit 1 the closing flag. -/
def missingFlags (x : List Byte) : Nat :=
  (if x.length < 1 ∨ byteAt x 0 ≠ frameFlag then 1 else 0)
    + (if x.length < 2 ∨ byteAt x (x.length - 1) ≠ frameFlag then 2 else 0)

/-- R199: compare a computed check sequence with the received one; `role` is bit 16 of the computed detail. -/
def checkCrc (role : Nat) (covered received : List Byte) : Except CmdError Unit :=
  raiseIf (crc16 covered false ≠ received)
    (.checksumMismatch (2 ^ 16 * role + fromBE (crc16 covered false)) (fromBE received))

/-- R195, R199: strip an LLC header from an I-frame's information; the second part is `kind`. -/
def stripLlc (ty : FrameType) (info : List Byte) : List Byte × Nat :=
  if ty = .info ∧ info.take 3 = llcCommand then (info.drop 3, 1)
  else if ty = .info ∧ info.take 3 = llcResponse then (info.drop 3, 2)
  else (info, 0)

/-- R197, R199: whether a frame of this type with (`hp`) or without an information field is Malformed. -/
def infoMisfit (ty : FrameType) (hp : Bool) : Bool :=
  match ty with
  | .snrm | .disc | .rr => hp
  | .info => !hp
  | .ua => false

/-- R199: the rule of H.FRMDEC, its checks in the rule's order. -/
def frmdecRule (dr sr : Role) (x : List Byte) : Except CmdError Result := do
  raiseIf (missingFlags x ≠ 0) (.missingHdlcFlags (missingFlags x))
  let ob := x.length - 2
  let b := bytesAt x 1 ob
  raiseIf (ob < 2) (.insufficientData 2 ob)
  let (decl, seg) ← formatFields (fromBE (bytesAt b 0 2))
  raiseIf (decl ≠ ob) (.lengthMismatch decl ob)
  let (dd, dn) ← addrdec b 2 dr
  let (sd, sn) ← addrdec b (2 + dn) sr
  let h := 2 + dn + sn + 1
  raiseIf (ob < h + 2) (.insufficientData (h + 2) ob)
  let rest := ob - h
  raiseIf (rest = 3 ∨ rest = 4) (.malformed rest)
  let hp := decide (rest ≥ 5)
  if hp then checkCrc 0 (bytesAt b 0 h) (bytesAt b h 2) else .ok ()
  checkCrc 1 (bytesAt b 0 (ob - 2)) (bytesAt b (ob - 2) 2)
  let (ty, cd) ← ctldec (byteAt b (h - 1))
  raiseIf (infoMisfit ty hp = true) (.malformed (byteAt b (h - 1)).toNat)
  let (info, kind) := stripLlc ty (if hp then bytesAt b (h + 2) (ob - 2 - (h + 2)) else [])
  .ok { out := info
        consumed := x.length
        r0 := dd
        r1 := sd
        r2 := cd ||| BitVec.ofNat 32 (2 ^ 13 * seg.toNat + 2 ^ 16 * kind)
        r3 := BitVec.ofNat 32 (decl + 2 ^ 16 * hp.toNat) }

/-- H.ADDRENC (R182). -/
def execHAddrenc (s : State) : Host.Outcome State Fault Refusal := runCommand (addrencRule s.arg0) s

/-- H.ADDRDEC (R183). -/
def execHAddrdec (r : Role) (s : State) : Host.Outcome State Fault Refusal := runCommand (addrdecRule r s.input) s

/-- H.FMTENC (R186). -/
def execHFmtenc (s : State) : Host.Outcome State Fault Refusal := runCommand (fmtencRule s.arg0) s

/-- H.FMTDEC (R187). -/
def execHFmtdec (s : State) : Host.Outcome State Fault Refusal := runCommand (fmtdecRule s.input) s

/-- H.CTLENC (R192). -/
def execHCtlenc (s : State) : Host.Outcome State Fault Refusal := runCommand (ctlencRule s.arg0) s

/-- H.CTLDEC (R193). -/
def execHCtldec (s : State) : Host.Outcome State Fault Refusal := runCommand (ctldecRule s.input) s

/-- H.FRMENC (R198). -/
def execHFrmenc (s : State) : Host.Outcome State Fault Refusal :=
  runCommand (frmencRule s.arg0 s.arg1 s.arg2 s.input) s

/-- H.FRMDEC (R199). -/
def execHFrmdec (dr sr : Role) (s : State) : Host.Outcome State Fault Refusal := runCommand (frmdecRule dr sr s.input) s

end Sys2Proof.Machine
end

