-- ==== Sys2Proof/Machine/System.lean ====
section
/-! DEFINITION. The system command NOP (spec 44_system.md R230). -/

namespace Sys2Proof.Machine

/-- NOP (R230): "Does nothing but complete." -/
def execNop (s : State) : Host.Outcome State Fault Refusal := runCommand (.ok {}) s

end Sys2Proof.Machine
end

