-- ==== Sys2Proof/Machine/Dispatch.lean ====
section
/-! DEFINITION. One arm per command (spec 30_encoding.md R82). -/

namespace Sys2Proof.Machine

def exec (i : Instr) (s : State) : Host.Outcome State Fault Refusal :=
  match i with
  | .nop => Sys2Proof.Machine.execNop s
  | .crcHcs l => Sys2Proof.Machine.execCrcHcs l s
  | .crcFcs l => Sys2Proof.Machine.execCrcFcs l s
  | .berEnc tl => Sys2Proof.Machine.execBerEnc tl s
  | .berDec tl e p => Sys2Proof.Machine.execBerDec tl e p s
  | .axLenenc => Sys2Proof.Machine.execAxLenenc s
  | .axLendec => Sys2Proof.Machine.execAxLendec s
  | .axEnc tag => Sys2Proof.Machine.execAxEnc tag s
  | .axDec e tag => Sys2Proof.Machine.execAxDec e tag s
  | .axSkip => Sys2Proof.Machine.execAxSkip s
  | .axOpt => Sys2Proof.Machine.execAxOpt s
  | .axFixed n => Sys2Proof.Machine.execAxFixed n s
  | .axVar t => Sys2Proof.Machine.execAxVar t s
  | .axPeek => Sys2Proof.Machine.execAxPeek s
  | .hAddrenc => Sys2Proof.Machine.execHAddrenc s
  | .hAddrdec r => Sys2Proof.Machine.execHAddrdec r s
  | .hFmtenc => Sys2Proof.Machine.execHFmtenc s
  | .hFmtdec => Sys2Proof.Machine.execHFmtdec s
  | .hCtlenc => Sys2Proof.Machine.execHCtlenc s
  | .hCtldec => Sys2Proof.Machine.execHCtldec s
  | .hFrmenc => Sys2Proof.Machine.execHFrmenc s
  | .hFrmdec dr sr => Sys2Proof.Machine.execHFrmdec dr sr s

end Sys2Proof.Machine
end

