-- ==== Sys2Proof/Machine/Engine.lean ====
section
/-! DEFINITION. The engine's turn and the machine's one total order of steps (spec 10_state.md R20, R38,
20_memory.md R71). -/

namespace Sys2Proof.Machine

/-- R38, R84: the engine's step for the latched word `w`: a legal word runs its command, an illegal one completes
with IllegalCommand(w, 0) before any other check (R83, R244). -/
def runWord (w : Word) (s : State) : Host.Outcome State Fault Refusal :=
  match decodeWord w with
  | .ok i => exec i s
  | .error _ => .next (failWith (.illegalCommand w.toNat) s)

/-- The engine's turn: "While BUSY = 1, the engine takes exactly one step" (R38); while BUSY = 0 it is idle
(R253). -/
def engineTurn (s : State) : Host.Outcome State Fault Refusal :=
  match s.pending with
  | none => .next s
  | some w => runWord w s

/-- The step of one input of R71's total order. -/
def perform (i : Input) (s : State) : Host.Outcome State Fault Refusal :=
  match i with
  | .host acc => .next (busAccess acc s)
  | .engine => engineTurn s
  | .powerOn => .next (powerOnReset s)

/-- One step: the oldest input, or the engine's turn when there is none. -/
def advance (s : State) : Host.Outcome State Fault Refusal :=
  match s.inputs with
  | [] => engineTurn s
  | i :: rest => perform i { s with inputs := rest }

end Sys2Proof.Machine
end

