-- ==== Sys2Proof/Machine/Step.lean ====
section
/-! DEFINITION. The step function, and how a command comes to be the next one to run (log entry 15). -/

namespace Sys2Proof.Machine

/-- One step of the machine: one host bus access, one engine step or one power-on (R20, R71). -/
def step (s : State) : Host.Outcome State Fault Refusal := advance s

/-- `s` with the `nbits`-bit word `w` (its higher bits 0) accepted as the command in flight (R37), and the next
turn the engine's. -/
def State.withFetchWord (s : State) (nbits w : Nat) : State :=
  { accept (BitVec.ofNat 32 (w % 2 ^ nbits)) s with inputs := .engine :: s.inputs }

end Sys2Proof.Machine
end

