-- ==== Sys2Proof/Safety.lean ====
section
/-! DEFINITION. The terms claims are stated in: the machine's invariant, the two completions of a command as
relations between the states before and after, and the byte forms of the codecs as relations (not as the
functions the model runs). -/

namespace Sys2Proof

open Machine

/-- R85: the cursors that pass the pre-checks. -/
abbrev LegalCursors (s : State) : Prop :=
  s.iend.toNat ≤ s.params.ibufSize ∧ s.icur.toNat ≤ s.iend.toNat ∧ s.ocur.toNat ≤ s.params.obufSize

/-- What holds after every step from a state where it holds, and at reset. -/
structure Inv (s : State) : Prop where
  /-- R3: the parameters are legal. -/
  params         : s.params.legal = true
  /-- The buffers' contents keep their canonical form. -/
  ibufCanonical  : s.ibuf.wf
  obufCanonical  : s.obuf.wf
  /-- R31, R32: the buffers hold their sizes and no more. -/
  ibufWithin     : Memory.within s.params.ibufSize s.ibuf
  obufWithin     : Memory.within s.params.obufSize s.obuf
  /-- R240: "ECODE values 15..255 are never written". -/
  ecodeRange     : s.ecode.toNat ≤ 14
  /-- R24, R37, R38, R242: ERR = 1 only beside an error code. -/
  errHasCode     : s.err = true → s.ecode ≠ 0
  /-- R37: from acceptance to completion DONE, ERR and ECODE are 0. -/
  busyQuiet      : s.busy = true → s.done = false ∧ s.err = false ∧ s.ecode = 0
  /-- R25, R37: CMD reads the word in flight. -/
  busyCmd        : ∀ w, s.pending = some w → s.cmd = w
  /-- R27, R29: after an error the results and the counts are 0. -/
  errorResults   : s.ecode ≠ 0 → s.res0 = 0 ∧ s.res1 = 0 ∧ s.res2 = 0 ∧ s.res3 = 0 ∧ s.icnt = 0 ∧ s.ocnt = 0
  /-- R30: after a success (and at reset) the error details are 0. -/
  successDetails : s.busy = false → s.ecode = 0 → s.edet0 = 0 ∧ s.edet1 = 0

/-- What no command writes (R23, R25, R26 "A command never changes IEND", R28, R31, R33, R74): `t` agrees with `s`
on CTRL, OVR, CMD, IEND, ARG0..ARG2, IBUF, the parameters and the model's own fields. -/
structure SameInputs (s t : State) : Prop where
  params   : t.params = s.params
  ie       : t.ie = s.ie
  maxdepth : t.maxdepth = s.maxdepth
  ovr      : t.ovr = s.ovr
  cmd      : t.cmd = s.cmd
  iend     : t.iend = s.iend
  arg0     : t.arg0 = s.arg0
  arg1     : t.arg1 = s.arg1
  arg2     : t.arg2 = s.arg2
  ibuf     : t.ibuf = s.ibuf
  inputs   : t.inputs = s.inputs
  reads    : t.reads = s.reads
  draws    : t.draws = s.draws
  powerUps : t.powerUps = s.powerUps

/-- R38: `t` is `s` after the commit of OUT, C and r0..r3. -/
structure Committed (s t : State) (r : Result) : Prop where
  same    : SameInputs s t
  /-- MemWrite(OBUF, reg[OCUR], len(OUT), OUT). -/
  written : ∀ k, k < r.out.length → t.obufByte (s.ocur.toNat + k) = r.out.getD k 0
  /-- R32: "Bytes outside that range keep their values". -/
  kept    : ∀ a, a < s.ocur.toNat ∨ s.ocur.toNat + r.out.length ≤ a → t.obufByte a = s.obufByte a
  icur    : t.icur = s.icur + BitVec.ofNat 32 r.consumed
  ocur    : t.ocur = s.ocur + BitVec.ofNat 32 r.out.length
  icnt    : t.icnt = BitVec.ofNat 32 r.consumed
  ocnt    : t.ocnt = BitVec.ofNat 32 r.out.length
  res0    : t.res0 = r.r0
  res1    : t.res1 = r.r1
  res2    : t.res2 = r.r2
  res3    : t.res3 = r.r3
  edet0   : t.edet0 = 0
  edet1   : t.edet1 = 0
  ecode   : t.ecode = 0
  err     : t.err = false
  done    : t.done = true
  idle    : t.busy = false

/-- R242: `t` is `s` after a completion with error `code` and the details `d0` and `d1`. -/
structure Failed (s t : State) (code : Byte) (d0 d1 : Word) : Prop where
  same  : SameInputs s t
  obuf  : t.obuf = s.obuf
  icur  : t.icur = s.icur
  ocur  : t.ocur = s.ocur
  icnt  : t.icnt = 0
  ocnt  : t.ocnt = 0
  res0  : t.res0 = 0
  res1  : t.res1 = 0
  res2  : t.res2 = 0
  res3  : t.res3 = 0
  edet0 : t.edet0 = d0
  edet1 : t.edet1 = d1
  ecode : t.ecode = code
  err   : t.err = true
  done  : t.done = true
  idle  : t.busy = false

/-- The command `i` in state `s` completes with success and these results (R38). -/
def Succeeds (i : Instr) (s : State) (r : Result) : Prop := ∃ t, exec i s = .next t ∧ Committed s t r

/-- The command `i` in state `s` completes with this error (R242). -/
def FailsWith (i : Instr) (s : State) (code : Byte) (d0 d1 : Nat) : Prop :=
  ∃ t, exec i s = .next t ∧ Failed s t code (BitVec.ofNat 32 d0) (BitVec.ofNat 32 d1)

/-- R38, R244: the command's rule gives `r`; it commits when OUT fits and is OutputOverflow otherwise. -/
def Gives (i : Instr) (s : State) (r : Result) : Prop :=
  (r.out.length ≤ s.room → Succeeds i s r) ∧ (s.room < r.out.length → FailsWith i s 9 r.out.length s.room)

/-- R140, R141: an A-XDR length prefix and its value, non-minimal long forms included (R143). -/
inductive LenPrefix : List Byte → Nat → Prop where
  | short (v : Nat) (h : v < 128) : LenPrefix [BitVec.ofNat 8 v] v
  | long (bs : List Byte) (h1 : 1 ≤ bs.length) (h4 : bs.length ≤ 4) :
      LenPrefix (BitVec.ofNat 8 (0x80 + bs.length) :: bs) (fromBE bs)

/-- R150, R151, R153, R156: the bytes of one item (of a container, its header), with its tag, the value a decoder
returns, the body it emits, the raw boolean byte, and whether elements follow. -/
inductive ItemBytes : List Byte → Byte → Word → List Byte → Byte → Bool → Prop where
  | null : ItemBytes [0] 0 0 [] 0 false
  | bool (b : Byte) : ItemBytes [3, b] 3 (if b = 0 then 0 else 1) [] b false
  | int8 (b : Byte) : ItemBytes [15, b] 15 (b.signExtend 32) [] 0 false
  | uint8 (b : Byte) : ItemBytes [17, b] 17 (b.setWidth 32) [] 0 false
  | int16 (b c : Byte) : ItemBytes [16, b, c] 16 ((b ++ c).signExtend 32) [] 0 false
  | uint16 (b c : Byte) : ItemBytes [18, b, c] 18 ((b ++ c).setWidth 32) [] 0 false
  | int32 (b c d e : Byte) : ItemBytes [5, b, c, d, e] 5 (b ++ c ++ d ++ e) [] 0 false
  | uint32 (b c d e : Byte) : ItemBytes [6, b, c, d, e] 6 (b ++ c ++ d ++ e) [] 0 false
  | octets (p body : List Byte) (h : LenPrefix p body.length) :
      ItemBytes (9 :: p ++ body) 9 (BitVec.ofNat 32 body.length) body 0 false
  | vstring (p body : List Byte) (h : LenPrefix p body.length) :
      ItemBytes (10 :: p ++ body) 10 (BitVec.ofNat 32 body.length) body 0 false
  | datetime (body : List Byte) (h : body.length = 12) : ItemBytes (25 :: body) 25 12 body 0 false
  | array (p : List Byte) (count : Nat) (h : LenPrefix p count) :
      ItemBytes (1 :: p) 1 (BitVec.ofNat 32 count) [] 0 true
  | struct (p : List Byte) (count : Nat) (h : LenPrefix p count) :
      ItemBytes (2 :: p) 2 (BitVec.ofNat 32 count) [] 0 true

mutual
/-- R157, R160: the bytes of one complete item tree, its depth and its number of items. -/
inductive TreeBytes : List Byte → Nat → Nat → Prop where
  | leaf (bs : List Byte) (t : Byte) (v : Word) (body : List Byte) (raw : Byte)
      (h : ItemBytes bs t v body raw false) : TreeBytes bs 1 1
  | node (hdr bs : List Byte) (t : Byte) (count : Word) (depth nodes : Nat)
      (h : ItemBytes hdr t count [] 0 true) (below : ForestBytes count.toNat bs depth nodes) :
      TreeBytes (hdr ++ bs) (1 + depth) (1 + nodes)
/-- R157, R160: the bytes of `n` item trees one after another. -/
inductive ForestBytes : Nat → List Byte → Nat → Nat → Prop where
  | nil : ForestBytes 0 [] 0 0
  | cons (n : Nat) (bs bs' : List Byte) (d d' m m' : Nat) (h : TreeBytes bs d m) (rest : ForestBytes n bs' d' m') :
      ForestBytes (n + 1) (bs ++ bs') (max d d') (m + m')
end

/-- R143, R156: the bytes `x` that begin at offset `k` of the input and end with it hold no whole item: the error (code
and details, its counts from the start of the input) of the first check of `item(k)` that fails. -/
inductive ItemFault (k : Nat) : (x : List Byte) → (code : Byte) → (d0 d1 : Nat) → Prop where
  | absent : ItemFault k [] 1 (k + 1) k
  | unknown (t : Byte) (cut : List Byte) (h : t.toNat ∉ [0, 1, 2, 3, 5, 6, 9, 10, 15, 16, 17, 18, 25]) :
      ItemFault k (t :: cut) 6 t.toNat 0
  | fixedCut (t : Byte) (cut : List Byte) (n : Nat) (short : cut.length + 1 < n)
      (h : (t.toNat, n) ∈ [(3, 2), (15, 2), (17, 2), (16, 3), (18, 3), (5, 5), (6, 5), (25, 13)]) :
      ItemFault k (t :: cut) 1 (k + n) (k + cut.length + 1)
  | lengthAbsent (t : Byte) (h : t.toNat ∈ [1, 2, 9, 10]) : ItemFault k [t] 1 (k + 2) (k + 1)
  | lengthMalformed (t : Byte) (cut : List Byte) (h : t.toNat ∈ [1, 2, 9, 10]) :
      ItemFault k (t :: 0x80 :: cut) 14 0x80 0
  | lengthTooLong (t : Byte) (n : Nat) (cut : List Byte) (h : t.toNat ∈ [1, 2, 9, 10]) (h4 : 4 < n) (h7 : n < 128) :
      ItemFault k (t :: BitVec.ofNat 8 (0x80 + n) :: cut) 7 n 4
  | lengthCut (t : Byte) (n : Nat) (cut : List Byte) (h : t.toNat ∈ [1, 2, 9, 10]) (h1 : 1 ≤ n) (h4 : n ≤ 4)
      (short : cut.length < n) :
      ItemFault k (t :: BitVec.ofNat 8 (0x80 + n) :: cut) 1 (k + 2 + n) (k + 2 + cut.length)
  | bodyCut (t : Byte) (p cut : List Byte) (len : Nat) (h : t.toNat = 9 ∨ t.toNat = 10) (hp : LenPrefix p len)
      (short : cut.length < len) :
      ItemFault k (t :: p ++ cut) 1 (k + 1 + p.length + len) (k + 1 + p.length + cut.length)

/-- R160: the walk of the item at offset `k` and depth `d`, with the bytes `x` from there to the end of the input, fails
with this error: the item is too deep, or does not parse, or its walk fails inside it after `j` whole elements, none
deeper than the limit. -/
inductive WalkFault (limit : Nat) : (x : List Byte) → (k d : Nat) → (code : Byte) → (d0 d1 : Nat) → Prop where
  | deep (x : List Byte) (k d : Nat) (h : limit < d) : WalkFault limit x k d 10 d limit
  | here (x : List Byte) (k d : Nat) (code : Byte) (d0 d1 : Nat) (hd : d ≤ limit) (h : ItemFault k x code d0 d1) :
      WalkFault limit x k d code d0 d1
  | inside (hdr bs x : List Byte) (t : Byte) (count : Word) (j depth nodes k d : Nat) (code : Byte) (d0 d1 : Nat)
      (hd : d ≤ limit) (header : ItemBytes hdr t count [] 0 true) (hj : j < count.toNat)
      (whole : ForestBytes j bs depth nodes) (fits : d + depth ≤ limit)
      (h : WalkFault limit x (k + hdr.length + bs.length) (d + 1) code d0 d1) :
      WalkFault limit (hdr ++ bs ++ x) k d code d0 d1

/-- R142: the A-XDR length prefix AX.LENENC writes, "the fewest length bytes". -/
def minimalPrefix (v : Word) : List Byte :=
  let b := fun i => v.extractLsb' (8 * i) 8
  if v.toNat < 0x80 then [b 0]
  else if v.toNat < 0x100 then [0x81, b 0]
  else if v.toNat < 0x10000 then [0x82, b 1, b 0]
  else if v.toNat < 0x1000000 then [0x83, b 2, b 1, b 0]
  else [0x84, b 3, b 2, b 1, b 0]

/-- R181's table: the bytes of an address, with the descriptor of R180 that names it, LEN set. -/
inductive AddrForm : Role → List Byte → Word → Prop where
  | one (role : Role) (l : Nat) (h : l < 128) :
      AddrForm role [BitVec.ofNat 8 (2 * l + 1)]
        (BitVec.ofNat 32 (l + (match role with | .client => 0 | .server => 0x10000) + 0x1000000))
  | two (l p : Nat) (h : l < 128) (h' : p < 128) :
      AddrForm .server [BitVec.ofNat 8 (2 * l), BitVec.ofNat 8 (2 * p + 1)]
        (BitVec.ofNat 32 (l + 0x100 * p + 0x8000 + 0x10000 + 0x2000000))
  | four (l p : Nat) (h : l < 128) (h' : p < 128) :
      AddrForm .server [0, BitVec.ofNat 8 (2 * l), 0, BitVec.ofNat 8 (2 * p + 1)]
        (BitVec.ofNat 32 (l + 0x100 * p + 0x8000 + 0x10000 + 0x20000 + 0x4000000))

/-- R183: the bytes `x` that begin at offset `k` of a list and end with it hold no address of the role: the error of
`addrdec` on them (code and details). `even` are the bytes before the end-of-address bit. -/
inductive AddrFault (role : Role) (k : Nat) : (x : List Byte) → (code : Byte) → (d0 d1 : Nat) → Prop where
  | cut (even : List Byte) (h : ∀ b ∈ even, b.getLsbD 0 = false) (short : even.length < 4) :
      AddrFault role k even 1 (k + even.length + 1) (k + even.length)
  | endless (even rest : List Byte) (h : ∀ b ∈ even, b.getLsbD 0 = false) (four : even.length = 4) :
      AddrFault role k (even ++ rest) 13 4 0
  | three (even : List Byte) (last : Byte) (rest : List Byte) (h : ∀ b ∈ even, b.getLsbD 0 = false)
      (hl : last.getLsbD 0 = true) (two : even.length = 2) : AddrFault role k (even ++ [last] ++ rest) 13 3 0
  | client (even : List Byte) (last : Byte) (rest : List Byte) (h : ∀ b ∈ even, b.getLsbD 0 = false)
      (hl : last.getLsbD 0 = true) (hr : role = .client) (long : even.length = 1 ∨ even.length = 3) :
      AddrFault role k (even ++ [last] ++ rest) 13 (even.length + 1) 0
  | upper (even : List Byte) (last : Byte) (rest : List Byte) (h : ∀ b ∈ even, b.getLsbD 0 = false)
      (hl : last.getLsbD 0 = true) (hr : role = .server) (three : even.length = 3)
      (nonzero : even.getD 0 0 ≠ 0 ∨ even.getD 2 0 ≠ 0) : AddrFault role k (even ++ [last] ++ rest) 13 4 1

/-- R180: the descriptor `a`, as a command takes it, names this address: "LEN … ignored on input", "PHYSICAL is
ignored when P = 0", every reserved bit 0. -/
def NamesAddress (a : Word) (role : Role) (bs : List Byte) : Prop :=
  ∃ d, AddrForm role bs d ∧ (a ^^^ d) &&& (if d.getLsbD 15 then 0xF8FFFFFF#32 else 0xF8FF80FF#32) = 0

/-- R188's table, R190: a control byte, its type, and its control descriptor with SEG = LLCDIR = 0. -/
inductive CtlForm : Byte → FrameType → Word → Prop where
  | snrm (pf : Bool) : CtlForm (BitVec.ofNat 8 (0x83 + 0x10 * pf.toNat)) .snrm (BitVec.ofNat 32 (0x1000 * pf.toNat))
  | ua (pf : Bool) : CtlForm (BitVec.ofNat 8 (0x63 + 0x10 * pf.toNat)) .ua (BitVec.ofNat 32 (1 + 0x1000 * pf.toNat))
  | disc (pf : Bool) :
      CtlForm (BitVec.ofNat 8 (0x43 + 0x10 * pf.toNat)) .disc (BitVec.ofNat 32 (2 + 0x1000 * pf.toNat))
  | rr (nr : Nat) (pf : Bool) (h : nr < 8) :
      CtlForm (BitVec.ofNat 8 (1 + 0x20 * nr + 0x10 * pf.toNat)) .rr
        (BitVec.ofNat 32 (3 + 0x100 * nr + 0x1000 * pf.toNat))
  | info (ns nr : Nat) (pf : Bool) (h : ns < 8) (h' : nr < 8) :
      CtlForm (BitVec.ofNat 8 (2 * ns + 0x20 * nr + 0x10 * pf.toNat)) .info
        (BitVec.ofNat 32 (4 + 0x10 * ns + 0x100 * nr + 0x1000 * pf.toNat))

/-- R190: the descriptor `c`, as a command takes it, names this control byte: SEG and LLCDIR "do not affect the
byte" (R191). -/
def NamesControl (c : Word) (ctl : Byte) (ty : FrameType) : Prop := CtlForm ctl ty (c &&& 0xFFFF9FFF#32)

/-- R195, R197: the information field H.FRMENC builds from the payload `x`, when the type allows one. -/
def EncodesInfo (ty : FrameType) (c : Word) (x info : List Byte) : Prop :=
  match ty with
  | .snrm | .disc | .rr => x = [] ∧ info = []
  | .ua => info = x
  | .info => info = (if c.getLsbD 14 then [0xE7, 0xE7, 0x00] else [0xE6, 0xE6, 0x00]) ++ x

/-- R195, R199: the information with its LLC header stripped, and the LLC kind. -/
def StripsTo (ty : FrameType) (info out : List Byte) (kind : Nat) : Prop :=
  (ty = .info ∧ info = [0xE6, 0xE6, 0x00] ++ out ∧ kind = 1) ∨
  (ty = .info ∧ info = [0xE7, 0xE7, 0x00] ++ out ∧ kind = 2) ∨
  ((ty ≠ .info ∨ (info.take 3 ≠ [0xE6, 0xE6, 0x00] ∧ info.take 3 ≠ [0xE7, 0xE7, 0x00])) ∧ out = info ∧ kind = 0)

/-- R197: the information fields a frame type may carry: none for SNRM, DISC and RR, at least one byte for an
I-frame, any for UA. -/
def InfoFits (ty : FrameType) (info : List Byte) : Prop :=
  match ty with
  | .snrm | .disc | .rr => info = []
  | .ua => True
  | .info => info ≠ []

/-- R194, R196: the length of a frame's body. -/
def bodyLength (dst src info : List Byte) : Nat :=
  (if info = [] then 5 else 7) + dst.length + src.length + info.length

/-- R185, R194, R198: format field, addresses and control byte: what the HCS covers. -/
def headerBytes (seg : Bool) (dst src : List Byte) (ctl : Byte) (info : List Byte) : List Byte :=
  let f := 0xA000 + 0x800 * seg.toNat + bodyLength dst src info
  [BitVec.ofNat 8 (f / 256), BitVec.ofNat 8 (f % 256)] ++ dst ++ src ++ [ctl]

/-- R194: the body less its FCS: what the FCS covers. "HCS is present iff an information field is present." -/
def coveredBytes (seg : Bool) (dst src : List Byte) (ctl : Byte) (info : List Byte) : List Byte :=
  let hdr := headerBytes seg dst src ctl info
  if info = [] then hdr else hdr ++ crc16 hdr false ++ info

/-- R194: one complete frame, flags included. -/
def frameBytes (seg : Bool) (dst src : List Byte) (ctl : Byte) (info : List Byte) : List Byte :=
  let covered := coveredBytes seg dst src ctl info
  [0x7E] ++ covered ++ crc16 covered false ++ [0x7E]

/-- The (match, mask) columns of spec/opcode_table.json, row by row (R83). -/
def commandTable : List (Word × Word) := [
  (0x00000000, 0xFFFFFFFF), (0x00000001, 0xFFFFFEFF), (0x00000002, 0xFFFFFEFF), (0x00000010, 0xFFFFF8FF),
  (0x00000011, 0xFFFFE0FF), (0x00000020, 0xFFFFFFFF), (0x00000021, 0xFFFFFFFF), (0x00000022, 0xFF00FFFF),
  (0x00000023, 0xFF00FEFF), (0x00000024, 0xFFFFFFFF), (0x00000025, 0xFFFFFFFF), (0x00000026, 0x0000FFFF),
  (0x00000027, 0xFFFFFEFF), (0x00000028, 0xFFFFFFFF), (0x00000030, 0xFFFFFFFF), (0x00000031, 0xFFFFFEFF),
  (0x00000032, 0xFFFFFFFF), (0x00000033, 0xFFFFFFFF), (0x00000034, 0xFFFFFFFF), (0x00000035, 0xFFFFFFFF),
  (0x00000036, 0xFFFFFFFF), (0x00000037, 0xFFFFFCFF)]

/-- R21 to R30: what a 32-bit read at offset `a` of the register region returns while BUSY = 0: the value of the
register listed there, 0 at "Any offset … not listed". -/
def registerAt (a : Nat) (s : State) : Word :=
  match a with
  | 0x000 => s.params.hwId
  | 0x004 => 0#16 ++ s.maxdepth ++ 0#7 ++ BitVec.ofBool s.ie
  | 0x008 =>
    0#16 ++ s.ecode ++ 0#4 ++ BitVec.ofBool s.ovr ++ BitVec.ofBool s.err ++ BitVec.ofBool s.done
      ++ BitVec.ofBool s.pending.isSome
  | 0x00C => s.cmd
  | 0x010 => s.icur
  | 0x014 => s.iend
  | 0x018 => s.ocur
  | 0x01C => s.icnt
  | 0x020 => s.ocnt
  | 0x024 => s.arg0
  | 0x028 => s.arg1
  | 0x02C => s.arg2
  | 0x030 => s.res0
  | 0x034 => s.res1
  | 0x038 => s.res2
  | 0x03C => s.res3
  | 0x040 => s.edet0
  | 0x044 => s.edet1
  | _ => 0

/-- R42: every register at its reset value: ID reads `HW_ID`, CTRL 0x0000_2000, every other offset 0. -/
def ResetRegisters (t : State) : Prop :=
  (∀ a, registerAt a t = (match a with | 0x000 => t.params.hwId | 0x004 => 0x00002000 | _ => 0)) ∧
  t.pending = none ∧ t.irq = false

/-- One bit step of the reflected CRC: shift right, XOR 0x8408 (0x1021 bit-reversed) when a 1 falls out. -/
def reflectedShift (v : BitVec 16) : BitVec 16 := if v.getLsbD 0 then (v >>> 1) ^^^ 0x8408#16 else v >>> 1

/-- One byte of the reflected CRC. -/
def reflectedByte (v : BitVec 16) (b : Byte) : BitVec 16 :=
  reflectedShift (reflectedShift (reflectedShift (reflectedShift (reflectedShift (reflectedShift (reflectedShift
    (reflectedShift (v ^^^ b.setWidth 16))))))))

/-- R103: the reflected CRC V, bit by bit and without a table (CRC-16/X-25). -/
def reflectedCrc (x : List Byte) : BitVec 16 := x.foldl reflectedByte 0xFFFF#16 ^^^ 0xFFFF#16

end Sys2Proof
end

