-- ==== Sys2Proof/Certificates/Slice0/Obligations.lean ====
section
/-! DEFINITION. The statements for the provers; each docstring names the rules of the spec it formalises. A command
that "gives" a result commits it when OUT fits in OBUF and completes with OutputOverflow otherwise (`Gives`). -/

open Sys2Proof Sys2Proof.Machine

/-! ## Encoding -/

/-- R80, R82, R86: decoding the word of a well-formed command gives the command back, every field whole. -/
def Obligations.DecodeOfEncode : Prop :=
  ∀ i : Instr, i.wf = true → decodeWord (encode i) = .ok i

/-- R80, R84: a legal word has one meaning: it is the word of the command it decodes to. -/
def Obligations.EncodeOfDecode : Prop :=
  ∀ (w : Word) (i : Instr), decodeWord w = .ok i → i.wf = true ∧ encode i = w

/-- R83: the legal words are exactly those that match a row of the opcode table, and an illegal word in flight
completes with IllegalCommand(word, 0) whatever the cursors are, changing nothing else. -/
def Obligations.LegalWordsAreTheTableRows : Prop :=
  ∀ (w : Word) (s : State),
    ((∃ r ∈ commandTable, w &&& r.2 = r.1) → ∃ i, decodeWord w = .ok i ∧ i.op = w.setWidth 8) ∧
    ((∀ r ∈ commandTable, w &&& r.2 ≠ r.1) → s.pending = some w →
      ∃ t, engineTurn s = .next t ∧ Failed s t 12 w 0)

/-- R82 and R89: words written out from the encodings decode to the commands they stand for. -/
def Obligations.SampleWordsDecode : Prop :=
  (decodeWord 0x00000000 = .ok .nop ∧ decodeWord 0x00000101 = .ok (.crcHcs true) ∧
    decodeWord 0x00000002 = .ok (.crcFcs false) ∧ decodeWord 0x00000210 = .ok (.berEnc 2) ∧
    decodeWord 0x00001911 = .ok (.berDec 1 true true) ∧ decodeWord 0x00080026 = .ok (.axFixed 8) ∧
    decodeWord 0x00000127 = .ok (.axVar true) ∧ decodeWord 0x00000131 = .ok (.hAddrdec .server)) ∧
  (decodeWord 0x00000022 = .ok (.axEnc 0) ∧ decodeWord 0x00010022 = .ok (.axEnc 1) ∧
    decodeWord 0x00020022 = .ok (.axEnc 2) ∧ decodeWord 0x00030022 = .ok (.axEnc 3) ∧
    decodeWord 0x00050022 = .ok (.axEnc 5) ∧ decodeWord 0x00060022 = .ok (.axEnc 6) ∧
    decodeWord 0x00090022 = .ok (.axEnc 9) ∧ decodeWord 0x000A0022 = .ok (.axEnc 10) ∧
    decodeWord 0x000F0022 = .ok (.axEnc 15) ∧ decodeWord 0x00100022 = .ok (.axEnc 16) ∧
    decodeWord 0x00110022 = .ok (.axEnc 17) ∧ decodeWord 0x00120022 = .ok (.axEnc 18) ∧
    decodeWord 0x00190022 = .ok (.axEnc 25)) ∧
  (∀ g ∈ [0, 1, 2, 3, 5, 6, 9, 10, 15, 16, 17, 18, 25],
    decodeWord (BitVec.ofNat 32 (0x00000123 + 0x10000 * g)) = .ok (.axDec true (BitVec.ofNat 8 g))) ∧
  (decodeWord 0x00000237 = .ok (.hFrmdec .client .server) ∧ decodeWord 0x00000137 = .ok (.hFrmdec .server .client))

/-! ## The step -/

/-- R38, R84, R71: a step in which the engine has its turn on a latched legal word is `exec` of the command that
word decodes to; `withFetchWord` makes the next step that. (The
inputs and `withFetchWord` are the model's own: log entries 3 and 15.) -/
def Obligations.StepRunsDecodedCommand : Prop :=
  ∀ (s : State) (w : Word) (i : Instr), decodeWord w = .ok i →
    (s.pending = some w → s.inputs = [] → step s = exec i s) ∧
    (s.pending = some w → ∀ rest, s.inputs = .engine :: rest → step s = exec i { s with inputs := rest }) ∧
    step (s.withFetchWord 32 w.toNat) = exec i (accept w s)

/-- R243 ("every bus access completes"), R38, R242: no step faults or is refused. -/
def Obligations.StepAlwaysAnswersNext : Prop :=
  ∀ s : State, ∃ t, step s = .next t

/-- The invariant holds at reset. -/
def Obligations.InvHoldsAtReset : Prop := Inv State.reset

/-- Every step keeps the invariant. -/
def Obligations.StepKeepsInv : Prop :=
  ∀ s t : State, Inv s → step s = .next t → Inv t

/-- R33, R36, R71: from acceptance to completion nothing a command reads or writes changes, and no second command
takes the first one's place; only OVR and the model's own fields may move. -/
def Obligations.BusyCommandIsUndisturbed : Prop :=
  ∀ (s t : State) (w : Word), s.pending = some w → step s = .next t → t.busy = true →
    ∃ o, t = { s with ovr := o, done := t.done, err := t.err, inputs := t.inputs, reads := t.reads, draws := t.draws }
      ∧ (s.done = false → t.done = false) ∧ (s.err = false → t.err = false)

/-- R38, R279: the engine's step comes after finitely many others: a busy machine is idle at some point within as
many steps as there are inputs, and one more (the inputs are the model's own form of LATENCY, log entry 3). -/
def Obligations.BusyEndsWithinInputs : Prop :=
  ∀ s : State, s.busy = true → ∃ k t, k ≤ s.inputs.length + 1 ∧ core.run k s = .next t ∧ State.busy t = false

/-- R85: every legal command makes the pre-checks, in this order, before anything else; past them it never reports
RangeError, and what it reads is IBUF[ICUR, IEND). -/
def Obligations.PreChecksComeFirst : Prop :=
  ∀ (i : Instr) (s : State),
    (s.params.ibufSize < s.iend.toNat → FailsWith i s 11 1 s.iend.toNat) ∧
    (s.iend.toNat ≤ s.params.ibufSize → s.iend.toNat < s.icur.toNat → FailsWith i s 11 0 s.icur.toNat) ∧
    (s.iend.toNat ≤ s.params.ibufSize → s.icur.toNat ≤ s.iend.toNat → s.params.obufSize < s.ocur.toNat →
      FailsWith i s 11 2 s.ocur.toNat) ∧
    (LegalCursors s → (∀ t, exec i s = .next t → t.ecode ≠ 11) ∧
      s.input.length = s.iend.toNat - s.icur.toNat ∧
      ∀ k, k < s.iend.toNat - s.icur.toNat → s.input.getD k 0 = s.ibufByte (s.icur.toNat + k))

/-- R38, R242, R243, R74: every command completes in its one step, by a commit of an output that fits the room in OBUF
or by an error completion with a code of R240, and changes nothing else: with legal parameters (R3) every OBUF byte
outside [OCUR, OCUR + OCNT) is as before. -/
def Obligations.EveryCommandCommitsOrFails : Prop :=
  ∀ (i : Instr) (s : State), ∃ t, exec i s = .next t ∧
    ((∃ r, Committed s t r ∧ r.out.length ≤ s.room) ∨
      ∃ code d0 d1, Failed s t code d0 d1 ∧ 1 ≤ code.toNat ∧ code.toNat ≤ 14) ∧
    (s.params.legal = true → ∀ k, k < s.ocur.toNat ∨ s.ocur.toNat + t.ocnt.toNat ≤ k → t.obufByte k = s.obufByte k)

/-- R31, R32, R61: with legal parameters (R3) a command's effect depends on IBUF only through IBUF[ICUR, IEND), and
not on OBUF at all: with any other contents elsewhere it gives the same registers and the same OBUF bytes at
[OCUR, OCUR + OCNT), and leaves every other byte of that other OBUF alone. -/
def Obligations.CommandSeesOnlyItsInputRegion : Prop :=
  ∀ (i : Instr) (s t : State) (m o : Memory), s.params.legal = true →
    State.input { s with ibuf := m } = s.input → exec i s = .next t →
    ∃ o', exec i { s with ibuf := m, obuf := o } = .next { t with ibuf := m, obuf := o' } ∧
      ∀ k, Memory.lookup o' k =
        (if s.ocur.toNat ≤ k ∧ k < s.ocur.toNat + t.ocnt.toNat then Memory.lookup t.obuf k else Memory.lookup o k)

/-- R38, R40: with legal parameters and cursors a command leaves legal cursors, and on success they have advanced
by exactly ICNT and OCNT, without wrapping. -/
def Obligations.CursorsAdvanceWithoutWrapping : Prop :=
  ∀ (i : Instr) (s t : State), s.params.legal = true → LegalCursors s → exec i s = .next t →
    LegalCursors t ∧ t.icur.toNat = s.icur.toNat + t.icnt.toNat ∧ t.ocur.toNat = s.ocur.toNat + t.ocnt.toNat

/-! ## Reset, acceptance and the host's accesses -/

/-- R42, R270, R271: what reset leaves: at power-on every register is at its reset value and each buffer byte is
its power-on draw; a CTRL write with SRST = 1 does the same at once, busy or not, and keeps the buffers. (How
the draws are numbered is the model's own: log entries 1 and 14.) -/
def Obligations.ResetLeavesResetValues : Prop :=
  ResetRegisters State.reset ∧
  (∀ (s : State) (rest : List Input), s.inputs = .powerOn :: rest →
    ∃ t, step s = .next t ∧ ResetRegisters t ∧ t.params = s.params ∧ t.inputs = rest ∧
      ∀ i, t.ibufByte i = Config.ibufPowerOn t.powerUps i ∧ t.obufByte i = Config.obufPowerOn t.powerUps i) ∧
  (∀ (s : State) (rest : List Input) (v : Word), s.inputs = .host (.write .w32 0x004 v) :: rest →
    v.getLsbD 1 = true →
    ∃ t, step s = .next t ∧ ResetRegisters t ∧ t.params = s.params ∧ t.inputs = rest ∧
      ∀ i, t.ibufByte i = s.ibufByte i ∧ t.obufByte i = s.obufByte i)

/-- R37: acceptance, one atomic update; everything it does not name is unchanged. -/
def Obligations.CmdWriteIsAcceptedWhenIdle : Prop :=
  ∀ (s : State) (rest : List Input) (w : Word), s.busy = false → s.inputs = .host (.write .w32 0x00C w) :: rest →
    step s = .next { s with
      inputs := rest, pending := some w, cmd := w, done := false, err := false, ecode := 0 }

/-- R33: while busy a write to CMD, CTRL (SRST = 0), a cursor, an ARG register or a buffer byte is dropped and sets
OVR; a STATUS write acts and a CTRL write with SRST = 1 resets. A write to a read-only register is ignored, busy or
not. (A wide write that begins inside a buffer and ends past its size counts as one to the buffer: log entry 11.) -/
def Obligations.BusyWritesAreDropped : Prop :=
  ∀ (s : State) (rest : List Input) (w : Width) (a : Offset) (v : Word), s.params.legal = true →
    s.inputs = .host (.write w a v) :: rest →
    (s.busy = true →
      (w = .w32 → a.toNat ∈ [0x00C, 0x010, 0x014, 0x018, 0x024, 0x028, 0x02C] →
        step s = .next { s with inputs := rest, ovr := true }) ∧
      (w = .w32 → a.toNat = 0x004 → v.getLsbD 1 = false → step s = .next { s with inputs := rest, ovr := true }) ∧
      (a.toNat % w.bytes = 0 → 0x1000 ≤ a.toNat → a.toNat < 0x1000 + s.params.ibufSize →
        step s = .next { s with inputs := rest, ovr := true }) ∧
      (a.toNat % w.bytes = 0 → 0x2000 ≤ a.toNat → a.toNat < 0x2000 + s.params.obufSize →
        step s = .next { s with inputs := rest, ovr := true }) ∧
      (w = .w32 → a.toNat = 0x008 → step s = .next { s with
        inputs := rest, done := s.done && !v.getLsbD 1, err := s.err && !v.getLsbD 2, ovr := s.ovr && !v.getLsbD 3 }) ∧
      (w = .w32 → a.toNat = 0x004 → v.getLsbD 1 = true → ∃ t, step s = .next t ∧ ResetRegisters t)) ∧
    (w = .w32 → a.toNat ∈ [0x000, 0x01C, 0x020, 0x030, 0x034, 0x038, 0x03C, 0x040, 0x044] →
      step s = .next { s with inputs := rest })

/-- R34: while busy a read of ID, CTRL, STATUS or CMD returns its value; a read of another register or of a buffer
byte returns a fresh free value (its low bytes for a narrow access; the model's choice, log entry 2). -/
def Obligations.BusyReadsAreUnspecified : Prop :=
  ∀ (s : State) (rest : List Input) (w : Width) (a : Offset), s.params.legal = true → s.busy = true →
    s.inputs = .host (.read w a) :: rest →
    (w = .w32 → a.toNat ∈ [0x000, 0x004, 0x008, 0x00C] →
      step s = .next { s with inputs := rest, reads := registerAt a.toNat s :: s.reads }) ∧
    (w = .w32 → a.toNat % 4 = 0 → 0x010 ≤ a.toNat → a.toNat ≤ 0x044 →
      step s = .next { s with
        inputs := rest, reads := Config.busyRead s.draws :: s.reads, draws := s.draws + 1 }) ∧
    (a.toNat % w.bytes = 0 →
      (0x1000 ≤ a.toNat ∧ a.toNat + w.bytes ≤ 0x1000 + s.params.ibufSize) ∨
        (0x2000 ≤ a.toNat ∧ a.toNat + w.bytes ≤ 0x2000 + s.params.obufSize) →
      step s = .next { s with
        inputs := rest
        reads := BitVec.ofNat 32 ((Config.busyRead s.draws).toNat % 2 ^ (8 * w.bytes)) :: s.reads
        draws := s.draws + 1 })

/-- R21 to R30: while idle a 32-bit read of the register region returns the register listed at the offset, laid out
as its rule says, and 0 at any other offset. -/
def Obligations.RegisterReadsWhenIdle : Prop :=
  ∀ (s : State) (rest : List Input) (a : Offset), s.busy = false → a.toNat < 0x1000 →
    s.inputs = .host (.read .w32 a) :: rest →
    step s = .next { s with inputs := rest, reads := registerAt a.toNat s :: s.reads }

/-- R21, R23, R26, R28: while idle a 32-bit write stores any value in a cursor or an ARG register, IE and MAXDEPTH in
CTRL (SRST = 0), and is ignored at a read-only register and at any unlisted offset. -/
def Obligations.RegisterWritesWhenIdle : Prop :=
  ∀ (s : State) (rest : List Input) (a : Offset) (v : Word), s.busy = false → a.toNat < 0x1000 →
    s.inputs = .host (.write .w32 a v) :: rest →
    (a.toNat = 0x010 → step s = .next { s with inputs := rest, icur := v }) ∧
    (a.toNat = 0x014 → step s = .next { s with inputs := rest, iend := v }) ∧
    (a.toNat = 0x018 → step s = .next { s with inputs := rest, ocur := v }) ∧
    (a.toNat = 0x024 → step s = .next { s with inputs := rest, arg0 := v }) ∧
    (a.toNat = 0x028 → step s = .next { s with inputs := rest, arg1 := v }) ∧
    (a.toNat = 0x02C → step s = .next { s with inputs := rest, arg2 := v }) ∧
    (a.toNat = 0x004 → v.getLsbD 1 = false →
      step s = .next { s with inputs := rest, ie := v.getLsbD 0, maxdepth := v.extractLsb' 8 8 }) ∧
    (a.toNat ∉ [0x004, 0x008, 0x00C, 0x010, 0x014, 0x018, 0x024, 0x028, 0x02C] →
      step s = .next { s with inputs := rest })

/-- R24: a STATUS write clears each of DONE, ERR and OVR whose bit is 1 and leaves the others and ECODE alone, busy
or not. -/
def Obligations.StatusWriteOneToClear : Prop :=
  ∀ (s : State) (rest : List Input) (v : Word), s.inputs = .host (.write .w32 0x008 v) :: rest →
    ∃ t, step s = .next t ∧
      t = { s with inputs := rest, done := t.done, err := t.err, ovr := t.ovr } ∧
      (t.done = true ↔ s.done = true ∧ v.getLsbD 1 = false) ∧
      (t.err = true ↔ s.err = true ∧ v.getLsbD 2 = false) ∧
      (t.ovr = true ↔ s.ovr = true ∧ v.getLsbD 3 = false)

/-- R62, R21's unlisted offsets, and R60's reserved region and addresses past a buffer's size: such a write is ignored
and such a read returns 0; no status bit changes and no free value is drawn, busy or not. (That
this holds while busy past a buffer's size is deduced: log entry 10.) -/
def Obligations.IgnoredAccessesDoNothing : Prop :=
  ∀ (s : State) (rest : List Input) (w : Width) (a : Offset) (v : Word), s.params.legal = true →
    ((a.toNat < 0x1000 ∧ (w ≠ .w32 ∨ a.toNat % 4 ≠ 0)) ∨ (0x048 ≤ a.toNat ∧ a.toNat < 0x1000) ∨
      (0x1000 + s.params.ibufSize ≤ a.toNat ∧ a.toNat < 0x2000) ∨
      (0x2000 + s.params.obufSize ≤ a.toNat ∧ a.toNat < 0x3000) ∨ 0x3000 ≤ a.toNat) →
    (s.inputs = .host (.write w a v) :: rest → step s = .next { s with inputs := rest }) ∧
    (s.inputs = .host (.read w a) :: rest → step s = .next { s with inputs := rest, reads := 0 :: s.reads })

/-- R63, R64: while idle an aligned buffer access moves the bytes in little-endian lanes, byte i+j in bits
8j+7..8j, and touches no other byte; a lane past the buffer's size reads 0 and is not written (R60; log entry 11).
A misaligned access is ignored, or reads 0. -/
def Obligations.BufferAccessLanes : Prop :=
  ∀ (s : State) (rest : List Input) (w : Width) (a : Offset) (v : Word) (base size : Nat)
    (byteOf : State → Nat → Byte),
    s.params.legal = true → s.busy = false → base ≤ a.toNat → a.toNat < base + size →
    (base = 0x1000 ∧ size = s.params.ibufSize ∧ byteOf = State.ibufByte) ∨
      (base = 0x2000 ∧ size = s.params.obufSize ∧ byteOf = State.obufByte) →
    (a.toNat % w.bytes = 0 → s.inputs = .host (.write w a v) :: rest →
      ∃ t, step s = .next t ∧
        (t = { s with inputs := rest, ibuf := t.ibuf } ∨ t = { s with inputs := rest, obuf := t.obuf }) ∧
        ∀ k, byteOf t k =
          (if a.toNat - base ≤ k ∧ k < a.toNat - base + w.bytes ∧ k < size
            then v.extractLsb' (8 * (k - (a.toNat - base))) 8 else byteOf s k)) ∧
    (a.toNat % w.bytes = 0 → s.inputs = .host (.read w a) :: rest →
      ∃ x, step s = .next { s with inputs := rest, reads := x :: s.reads } ∧ x.toNat < 2 ^ (8 * w.bytes) ∧
        ∀ j, j < w.bytes →
          x.extractLsb' (8 * j) 8 =
            (if a.toNat - base + j < size then byteOf s (a.toNat - base + j) else 0)) ∧
    (a.toNat % w.bytes ≠ 0 → s.inputs = .host (.write w a v) :: rest → step s = .next { s with inputs := rest }) ∧
    (a.toNat % w.bytes ≠ 0 → s.inputs = .host (.read w a) :: rest →
      step s = .next { s with inputs := rest, reads := 0 :: s.reads })

/-- R68: "Bus reads have no side effects": a read changes only what the host has read (and the number of free values
drawn, a field of the model's own). -/
def Obligations.BusReadsHaveNoSideEffects : Prop :=
  ∀ (s : State) (rest : List Input) (w : Width) (a : Offset), s.inputs = .host (.read w a) :: rest →
    ∃ x n, step s = .next { s with inputs := rest, reads := x :: s.reads, draws := n }

/-- R245: IRQ = IE and DONE; it rises at every completion (success or error, of an illegal word too) while IE = 1 and
when the host sets IE while DONE = 1, and falls when the host clears DONE or IE, at acceptance and at either reset;
OVR has no part in it. -/
def Obligations.IrqFollowsEnableAndDone : Prop :=
  (∀ s : State, s.irq = true ↔ s.ie = true ∧ s.done = true) ∧
  (∀ s t : State, s.busy = true → engineTurn s = .next t → t.irq = s.ie) ∧
  (∀ (s t : State) (rest : List Input) (v : Word), s.busy = false → v.getLsbD 1 = false →
    s.inputs = .host (.write .w32 0x004 v) :: rest → step s = .next t → t.irq = (v.getLsbD 0 && s.done)) ∧
  (∀ (s t : State) (rest : List Input) (v : Word), v.getLsbD 1 = true →
    s.inputs = .host (.write .w32 0x008 v) :: rest → step s = .next t → t.irq = false) ∧
  (∀ (s t : State) (rest : List Input) (w : Word), s.busy = false →
    s.inputs = .host (.write .w32 0x00C w) :: rest → step s = .next t → t.irq = false) ∧
  (∀ (s t : State) (rest : List Input) (v : Word), v.getLsbD 1 = true →
    s.inputs = .host (.write .w32 0x004 v) :: rest → step s = .next t → t.irq = false) ∧
  (∀ (s t : State) (rest : List Input), s.inputs = .powerOn :: rest → step s = .next t → t.irq = false)

/-- R60: a block at a 0x4000-aligned BASE answers exactly the bus addresses BASE + a for a in 0x0000..0x3FFF. -/
def Obligations.WindowAnswersItsAddresses : Prop :=
  ∀ base addr : Nat, base % 0x4000 = 0 →
    (∀ a : Nat, a < 0x4000 → addr = base + a → windowOffset base addr = some (BitVec.ofNat 14 a)) ∧
    (addr < base ∨ base + 0x4000 ≤ addr → windowOffset base addr = none)

/-- R24, R33, R41: only a dropped host write sets OVR. -/
def Obligations.OvrIsSetOnlyByDroppedWrites : Prop :=
  ∀ s t : State, step s = .next t → s.ovr = false → t.ovr = true →
    s.busy = true ∧ ∃ w a v rest, s.inputs = .host (.write w a v) :: rest ∧ t = { s with inputs := rest, ovr := true }

/-! ## NOP and the CRC -/

/-- R230: NOP emits and consumes nothing; RES0..RES3, ICNT, OCNT, EDET0 and EDET1 become 0, and IRQ is CTRL.IE. -/
def Obligations.NopOnlyCompletes : Prop :=
  ∀ s : State, LegalCursors s → ∃ t, exec .nop s = .next t ∧ Committed s t {} ∧ t.irq = s.ie

/-- R103, R104, R105: CRC.HCS and CRC.FCS both emit the two bytes of W = crc16_W(input), high byte first for L = 0
and low byte first for L = 1, consume the whole input, and return the two bytes as a big-endian number. -/
def Obligations.CrcCommandsGiveTheCrc : Prop :=
  ∀ (s : State) (l : Bool), LegalCursors s →
    let hi := (crcW s.input).extractLsb' 8 8
    let lo := (crcW s.input).extractLsb' 0 8
    let r : Result := { out := if l then [lo, hi] else [hi, lo], consumed := s.avail
                        r0 := if l then (lo ++ hi).setWidth 32 else (hi ++ lo).setWidth 32 }
    Gives (.crcHcs l) s r ∧ Gives (.crcFcs l) s r

/-- R35, R101, R108: the table has 256 entries, the ones the spec lists are as listed, and the CRC of the empty list
is 00 00 for both orders. -/
def Obligations.CrcTableAndEmptyInput : Prop :=
  crcTable.length = 256 ∧
  (∀ c ∈ [(0x00, 0x0000#16), (0x01, 0x1021#16), (0x02, 0x2042#16), (0x03, 0x3063#16), (0x04, 0x4084#16),
      (0x08, 0x8108#16), (0x0F, 0xF1EF#16), (0x10, 0x1231#16), (0x80, 0x9188#16), (0xFF, 0x1EF0#16)],
    crcTable.getD c.1 0 = c.2) ∧
  (∀ i : Byte, crcTable.getD i.toNat 0 = crcEntry i) ∧
  crcW [] = 0 ∧ (∀ l, crc16 [] l = [0, 0])

/-- R103: the table-driven CRC of R102 is the reflected CRC V computed bit by bit: L = 0 puts the low byte of V
first, L = 1 its high byte. -/
def Obligations.CrcIsTheReflectedCrc : Prop :=
  ∀ x : List Byte,
    crc16 x false = [(reflectedCrc x).extractLsb' 0 8, (reflectedCrc x).extractLsb' 8 8] ∧
    crc16 x true = [(reflectedCrc x).extractLsb' 8 8, (reflectedCrc x).extractLsb' 0 8]

/-- R107: a list followed by its own L = 0 check sequence has the CRC 0x470F. -/
def Obligations.CrcResidueIsConstant : Prop :=
  ∀ x : List Byte, crcW (x ++ crc16 x false) = 0x470F

/-- R106: flipping any one bit of the list, or of the two CRC bytes, makes the check sequence fail. -/
def Obligations.CrcDetectsEveryFlippedBit : Prop :=
  ∀ (x : List Byte) (l : Bool) (i : Nat), i < 8 →
    (∀ k, k < x.length → crc16 (x.set k (x.getD k 0 ^^^ (1#8 <<< i))) l ≠ crc16 x l) ∧
    (∀ k, k < 2 → (crc16 x l).set k ((crc16 x l).getD k 0 ^^^ (1#8 <<< i)) ≠ crc16 x l)

/-! ## BER -/

/-- R120, R121: BER.ENC wraps the whole input as tag, length byte and data; empty data gives an empty output; and the
errors of a bad TL, a tag too wide and data too long, in that order. -/
def Obligations.BerEncWrapsTheInput : Prop :=
  ∀ (s : State) (tl : Nat), LegalCursors s → tl < 8 →
    (tl < 1 ∨ 4 < tl → FailsWith (.berEnc tl) s 8 3 tl) ∧
    (1 ≤ tl → tl ≤ 4 → 2 ^ (8 * tl) ≤ s.arg0.toNat → FailsWith (.berEnc tl) s 8 0 s.arg0.toNat) ∧
    (1 ≤ tl → tl ≤ 4 → s.arg0.toNat < 2 ^ (8 * tl) → s.input = [] → Succeeds (.berEnc tl) s {}) ∧
    (1 ≤ tl → tl ≤ 4 → s.arg0.toNat < 2 ^ (8 * tl) → s.input ≠ [] → s.input.length ≤ 255 →
      ∀ tag : List Byte, tag.length = tl → fromBE tag = s.arg0.toNat →
        Gives (.berEnc tl) s
          { out := tag ++ [BitVec.ofNat 8 s.input.length] ++ s.input, consumed := s.input.length
            r0 := BitVec.ofNat 32 s.input.length }) ∧
    (1 ≤ tl → tl ≤ 4 → s.arg0.toNat < 2 ^ (8 * tl) → 255 < s.input.length →
      FailsWith (.berEnc tl) s 7 s.input.length 255)

/-- R122: BER.DEC of an element, which must fill the region in strict mode (P = 0) and may be followed by more bytes in
prefix mode: its data goes to OBUF, the tag, the length and TL to RES0..RES2. -/
def Obligations.BerDecReadsAnElement : Prop :=
  ∀ (s : State) (tl : Nat) (e p : Bool) (tag data rest : List Byte), LegalCursors s → 1 ≤ tl → tl ≤ 4 →
    tag.length = tl → data.length ≤ 255 → s.input = tag ++ [BitVec.ofNat 8 data.length] ++ data ++ rest →
    (p = false → rest = []) → (e = true → s.arg0.toNat = fromBE tag) →
    Gives (.berDec tl e p) s
      { out := data, consumed := tl + 1 + data.length, r0 := BitVec.ofNat 32 (fromBE tag)
        r1 := BitVec.ofNat 32 data.length, r2 := BitVec.ofNat 32 tl }

/-- R122's errors in their order: TL, the expected tag's width, missing tag and length bytes, the wrong tag, and the
length that does not fit the region (strict) or its bytes (prefix). -/
def Obligations.BerDecErrors : Prop :=
  ∀ (s : State) (tl : Nat) (e p : Bool), LegalCursors s → tl < 8 →
    (tl < 1 ∨ 4 < tl → FailsWith (.berDec tl e p) s 8 3 (tl + (if e then 8 else 0) + (if p then 16 else 0))) ∧
    (1 ≤ tl → tl ≤ 4 →
      (e = true → 2 ^ (8 * tl) ≤ s.arg0.toNat → FailsWith (.berDec tl e p) s 8 0 s.arg0.toNat) ∧
      ((e = true → s.arg0.toNat < 2 ^ (8 * tl)) →
        (s.input.length < tl + 1 → FailsWith (.berDec tl e p) s 1 (tl + 1) s.input.length) ∧
        (∀ (tag rest : List Byte) (len : Byte), tag.length = tl → s.input = tag ++ [len] ++ rest →
          (e = true → fromBE tag ≠ s.arg0.toNat → FailsWith (.berDec tl e p) s 2 (fromBE tag) s.arg0.toNat) ∧
          ((e = true → fromBE tag = s.arg0.toNat) →
            (p = false → rest.length ≠ len.toNat → FailsWith (.berDec tl e p) s 3 len.toNat rest.length) ∧
            (p = true → rest.length < len.toNat →
              FailsWith (.berDec tl e p) s 1 (tl + 1 + len.toNat) s.input.length)))))

/-- R123: decoding (strict, any E with ARG0 the tag) what BER.ENC made of a non-empty data list gives back the data,
the tag and the length; an empty list encodes to nothing. -/
def Obligations.BerRoundTrip : Prop :=
  ∀ (tl : Nat) (t : Word) (d : List Byte) (e : Bool), 1 ≤ tl → tl ≤ 4 → t.toNat < 2 ^ (8 * tl) →
    (1 ≤ d.length → d.length ≤ 255 →
      ∃ r r', berEncRule tl t d = .ok r ∧ berDecRule tl e false t r.out = .ok r' ∧
        r'.out = d ∧ r'.r0 = t ∧ r'.r1 = BitVec.ofNat 32 d.length) ∧
    (∃ r, berEncRule tl t [] = .ok r ∧ r.out = [])

/-! ## A-XDR -/

/-- R142: AX.LENENC emits ARG0 in the short form below 128 and in the long form with the fewest bytes from there on;
it reads no input and returns the number of bytes. -/
def Obligations.AxLenencWritesTheMinimalPrefix : Prop :=
  ∀ s : State, LegalCursors s →
    Gives .axLenenc s { out := minimalPrefix s.arg0, r0 := BitVec.ofNat 32 (minimalPrefix s.arg0).length }

/-- R140, R141, R143: AX.LENDEC reads any length prefix, non-minimal ones too; and its errors: no input, 0x80, more
than four length bytes, and missing length bytes. -/
def Obligations.AxLendecReadsAPrefix : Prop :=
  ∀ s : State, LegalCursors s →
    (∀ (p rest : List Byte) (v : Nat), LenPrefix p v → s.input = p ++ rest →
      Gives .axLendec s { consumed := p.length, r0 := BitVec.ofNat 32 v, r1 := BitVec.ofNat 32 p.length }) ∧
    (s.input = [] → FailsWith .axLendec s 1 1 0) ∧
    (∀ rest, s.input = 0x80 :: rest → FailsWith .axLendec s 14 0x80 0) ∧
    (∀ (n : Nat) (rest : List Byte), 4 < n → n < 128 → s.input = BitVec.ofNat 8 (0x80 + n) :: rest →
      FailsWith .axLendec s 7 n 4) ∧
    (∀ (n : Nat) (rest : List Byte), 1 ≤ n → n ≤ 4 → s.input = BitVec.ofNat 8 (0x80 + n) :: rest →
      rest.length < n → FailsWith .axLendec s 1 (1 + n) s.input.length)

/-- R151, R152, R153: AX.ENC of a null, a boolean and the integers: the tag and the value's big-endian bytes, no input
consumed; a value the type cannot represent is ArgumentError(0, ARG0). -/
def Obligations.AxEncScalars : Prop :=
  ∀ s : State, LegalCursors s →
    let a := s.arg0
    let b := fun i => a.extractLsb' (8 * i) 8
    Gives (.axEnc 0) s { out := [0], r0 := 0 } ∧
    (a = 0 ∨ a = 1 → Gives (.axEnc 3) s { out := [3, b 0], r0 := 3 }) ∧
    (a ≠ 0 → a ≠ 1 → FailsWith (.axEnc 3) s 8 0 a.toNat) ∧
    (-128 ≤ a.toInt → a.toInt ≤ 127 → Gives (.axEnc 15) s { out := [15, b 0], r0 := 15 }) ∧
    (a.toInt < -128 ∨ 127 < a.toInt → FailsWith (.axEnc 15) s 8 0 a.toNat) ∧
    (-32768 ≤ a.toInt → a.toInt ≤ 32767 → Gives (.axEnc 16) s { out := [16, b 1, b 0], r0 := 16 }) ∧
    (a.toInt < -32768 ∨ 32767 < a.toInt → FailsWith (.axEnc 16) s 8 0 a.toNat) ∧
    (a.toNat ≤ 255 → Gives (.axEnc 17) s { out := [17, b 0], r0 := 17 }) ∧
    (255 < a.toNat → FailsWith (.axEnc 17) s 8 0 a.toNat) ∧
    (a.toNat ≤ 65535 → Gives (.axEnc 18) s { out := [18, b 1, b 0], r0 := 18 }) ∧
    (65535 < a.toNat → FailsWith (.axEnc 18) s 8 0 a.toNat) ∧
    Gives (.axEnc 5) s { out := [5, b 3, b 2, b 1, b 0], r0 := 5 } ∧
    Gives (.axEnc 6) s { out := [6, b 3, b 2, b 1, b 0], r0 := 6 }

/-- R152, R154, R157: AX.ENC of strings (ARG0 input bytes after their length), of container headers (ARG0 elements) and
of a date-time (12 input bytes); InsufficientData when the bytes are missing, UnknownEnumValue for any tag R150 does
not list. -/
def Obligations.AxEncBytesAndHeaders : Prop :=
  ∀ s : State, LegalCursors s →
    let a := s.arg0
    (∀ t ∈ [9#8, 10#8],
      (a.toNat ≤ s.input.length → Gives (.axEnc t) s
        { out := t :: minimalPrefix a ++ s.input.take a.toNat, consumed := a.toNat, r0 := t.setWidth 32 }) ∧
      (s.input.length < a.toNat → FailsWith (.axEnc t) s 1 a.toNat s.input.length)) ∧
    (∀ t ∈ [1#8, 2#8], Gives (.axEnc t) s { out := t :: minimalPrefix a, r0 := t.setWidth 32 }) ∧
    (12 ≤ s.input.length → Gives (.axEnc 25) s { out := 25 :: s.input.take 12, consumed := 12, r0 := 25 }) ∧
    (s.input.length < 12 → FailsWith (.axEnc 25) s 1 12 s.input.length) ∧
    (∀ t : Byte, t.toNat ∉ [0, 1, 2, 3, 5, 6, 9, 10, 15, 16, 17, 18, 25] → FailsWith (.axEnc t) s 6 t.toNat 0)

/-- R150, R151, R153, R155, R156: AX.DEC reads any item (of a container, its header), expected or not, and returns its
tag, its value and the raw boolean byte; string and date-time bodies go to OBUF; later bytes stay in the input. -/
def Obligations.AxDecReadsAnItem : Prop :=
  ∀ (s : State) (e : Bool) (tag t raw : Byte) (bs body rest : List Byte) (v : Word) (container : Bool),
    LegalCursors s → ItemBytes bs t v body raw container → s.input = bs ++ rest → (e = true → tag = t) →
    Gives (.axDec e tag) s
      { out := body, consumed := bs.length, r0 := t.setWidth 32, r1 := v, r2 := raw.setWidth 32 }

/-- R155, R156: AX.DEC's errors: no input, the wrong tag, an unknown tag, and an item cut short (its needed length
counted from ICUR). -/
def Obligations.AxDecErrors : Prop :=
  ∀ (s : State) (e : Bool) (tag : Byte), LegalCursors s →
    (s.input = [] → FailsWith (.axDec e tag) s 1 1 0) ∧
    (∀ (t : Byte) (rest : List Byte), s.input = t :: rest →
      (e = true → t ≠ tag → FailsWith (.axDec e tag) s 2 t.toNat tag.toNat) ∧
      ((e = true → t = tag) →
        (t.toNat ∉ [0, 1, 2, 3, 5, 6, 9, 10, 15, 16, 17, 18, 25] → FailsWith (.axDec e tag) s 6 t.toNat 0) ∧
        (∀ c ∈ [(3, 2), (15, 2), (17, 2), (16, 3), (18, 3), (5, 5), (6, 5), (25, 13)], t.toNat = c.1 →
          s.input.length < c.2 → FailsWith (.axDec e tag) s 1 c.2 s.input.length) ∧
        (t.toNat = 9 ∨ t.toNat = 10 → ∀ (p cut : List Byte) (len : Nat), LenPrefix p len → rest = p ++ cut →
          cut.length < len → FailsWith (.axDec e tag) s 1 (1 + p.length + len) s.input.length) ∧
        (t.toNat ∈ [1, 2, 9, 10] →
          (rest = [] → FailsWith (.axDec e tag) s 1 2 1) ∧
          (∀ cut, rest = 0x80 :: cut → FailsWith (.axDec e tag) s 14 0x80 0) ∧
          (∀ (n : Nat) (cut : List Byte), 4 < n → n < 128 → rest = BitVec.ofNat 8 (0x80 + n) :: cut →
            FailsWith (.axDec e tag) s 7 n 4) ∧
          (∀ (n : Nat) (cut : List Byte), 1 ≤ n → n ≤ 4 → rest = BitVec.ofNat 8 (0x80 + n) :: cut →
            cut.length < n → FailsWith (.axDec e tag) s 1 (2 + n) s.input.length))))

/-- R158: for every item AX.ENC encodes, AX.DEC (expecting its tag, any bytes after it) returns what AX.ENC took: the
integer's 32-bit pattern, the boolean, the string's bytes and length, the container's count, the twelve bytes. -/
def Obligations.AxItemRoundTrip : Prop :=
  ∀ (t : Byte) (a : Word) (x rest : List Byte) (r : Result), axEncRule t a x = .ok r →
    ∃ r', axDecRule true t (r.out ++ rest) = .ok r' ∧ r'.consumed = r.out.length ∧ r'.r0 = t.setWidth 32 ∧
      r'.out = x.take r.consumed ∧
      r'.r1 = (if t = 0 then 0 else if t = 25 then 12 else a)

/-- R160, R161: AX.SKIP consumes one complete item tree of depth at most MAXDEPTH, emits nothing, and returns the bytes,
the depth and the number of items. -/
def Obligations.AxSkipWalksATree : Prop :=
  ∀ (s : State) (bs rest : List Byte) (depth nodes : Nat), LegalCursors s → TreeBytes bs depth nodes →
    s.input = bs ++ rest → depth ≤ s.maxdepth.toNat →
    Gives .axSkip s
      { consumed := bs.length, r0 := BitVec.ofNat 32 bs.length, r1 := BitVec.ofNat 32 depth
        r2 := BitVec.ofNat 32 nodes }

/-- R160's failures: a complete tree deeper than MAXDEPTH fails at its first item at depth MAXDEPTH + 1, and MAXDEPTH
= 0 fails every walk, even on empty input; within the limit no input is InsufficientData(1, 0), an unknown tag is
UnknownEnumValue, and a container whose elements are missing altogether is InsufficientData for the next byte. In
general the walk fails with the error of the first item, at any depth, that is too deep or does not parse
(`WalkFault`): an unknown tag, a body or a length cut short, a Malformed length or one too long. -/
def Obligations.AxSkipGuardsDepthAndInput : Prop :=
  ∀ s : State, LegalCursors s →
    (∀ (bs rest : List Byte) (depth nodes : Nat), TreeBytes bs depth nodes → s.input = bs ++ rest →
      s.maxdepth.toNat < depth → FailsWith .axSkip s 10 (s.maxdepth.toNat + 1) s.maxdepth.toNat) ∧
    (s.maxdepth = 0 → FailsWith .axSkip s 10 1 0) ∧
    (1 ≤ s.maxdepth.toNat → s.input = [] → FailsWith .axSkip s 1 1 0) ∧
    (1 ≤ s.maxdepth.toNat → ∀ (t : Byte) (rest : List Byte), s.input = t :: rest →
      t.toNat ∉ [0, 1, 2, 3, 5, 6, 9, 10, 15, 16, 17, 18, 25] → FailsWith .axSkip s 6 t.toNat 0) ∧
    (2 ≤ s.maxdepth.toNat → ∀ (t : Byte) (count : Word), ItemBytes s.input t count [] 0 true → count ≠ 0 →
      FailsWith .axSkip s 1 (s.input.length + 1) s.input.length) ∧
    (∀ (code : Byte) (d0 d1 : Nat), WalkFault s.maxdepth.toNat s.input 0 1 code d0 d1 → FailsWith .axSkip s code d0 d1)

/-- R162 to R165: AX.OPT consumes a flag byte 0x00 or 0x01 and refuses any other; AX.PEEK returns the next byte and
consumes nothing; AX.FIXED copies N bytes; AX.VAR copies the bytes after a length prefix (T = 0, the prefix consumed
but not emitted) or all remaining bytes (T = 1); InsufficientData when the bytes are missing; and AX.VAR (T = 0) has
the errors of R143's length: no input, 0x80, more than four length bytes, and missing length bytes. -/
def Obligations.AxAttributePrimitives : Prop :=
  ∀ s : State, LegalCursors s →
    (s.input = [] → FailsWith .axOpt s 1 1 0 ∧ FailsWith .axPeek s 1 1 0) ∧
    (∀ (b : Byte) (rest : List Byte), s.input = b :: rest →
      (b = 0 ∨ b = 1 → Succeeds .axOpt s { consumed := 1, r0 := b.setWidth 32 }) ∧
      (b ≠ 0 → b ≠ 1 → FailsWith .axOpt s 6 b.toNat 0) ∧
      Succeeds .axPeek s { r0 := b.setWidth 32 }) ∧
    (∀ n, n < 65536 → n ≤ s.input.length →
      Gives (.axFixed n) s { out := s.input.take n, consumed := n, r0 := BitVec.ofNat 32 n }) ∧
    (∀ n, n < 65536 → s.input.length < n → FailsWith (.axFixed n) s 1 n s.input.length) ∧
    Gives (.axVar true) s
      { out := s.input, consumed := s.input.length, r0 := BitVec.ofNat 32 s.input.length } ∧
    (∀ (p body rest : List Byte), LenPrefix p body.length → s.input = p ++ body ++ rest →
      Gives (.axVar false) s
        { out := body, consumed := p.length + body.length, r0 := BitVec.ofNat 32 body.length }) ∧
    (∀ (p cut : List Byte) (len : Nat), LenPrefix p len → s.input = p ++ cut → cut.length < len →
      FailsWith (.axVar false) s 1 (p.length + len) s.input.length) ∧
    (s.input = [] → FailsWith (.axVar false) s 1 1 0) ∧
    (∀ rest, s.input = 0x80 :: rest → FailsWith (.axVar false) s 14 0x80 0) ∧
    (∀ (n : Nat) (rest : List Byte), 4 < n → n < 128 → s.input = BitVec.ofNat 8 (0x80 + n) :: rest →
      FailsWith (.axVar false) s 7 n 4) ∧
    (∀ (n : Nat) (rest : List Byte), 1 ≤ n → n ≤ 4 → s.input = BitVec.ofNat 8 (0x80 + n) :: rest →
      rest.length < n → FailsWith (.axVar false) s 1 (1 + n) s.input.length)

/-! ## HDLC -/

/-- R180, R181, R182: H.ADDRENC of a descriptor that names an address emits its bytes and returns the descriptor with
LEN set; any other ARG0 is ArgumentError(0, ARG0). -/
def Obligations.AddrEncEmitsTheAddress : Prop :=
  ∀ s : State, LegalCursors s →
    (∀ (role : Role) (bs : List Byte), NamesAddress s.arg0 role bs →
      Gives .hAddrenc s { out := bs, r0 := 0#5 ++ BitVec.ofNat 3 bs.length ++ 0#6 ++ s.arg0.extractLsb' 0 18 }) ∧
    ((∀ (role : Role) (bs : List Byte), ¬ NamesAddress s.arg0 role bs) → FailsWith .hAddrenc s 8 0 s.arg0.toNat)

/-- R181, R183: H.ADDRDEC reads an address of the command's role and returns its descriptor with LEN set; later bytes
stay in the input. -/
def Obligations.AddrDecReadsAnAddress : Prop :=
  ∀ (s : State) (role : Role) (bs rest : List Byte) (d : Word), LegalCursors s → AddrForm role bs d →
    s.input = bs ++ rest → Gives (.hAddrdec role) s { consumed := bs.length, r0 := d }

/-- R183's errors: the input ends before a byte with bit 0 set; four bytes without one; three bytes; a client address
of more than one byte; a 4-byte address with a nonzero upper byte. -/
def Obligations.AddrDecErrors : Prop :=
  ∀ (s : State) (role : Role) (even rest : List Byte) (last : Byte), LegalCursors s →
    (∀ b ∈ even, b.getLsbD 0 = false) →
    (s.input = even → even.length < 4 → FailsWith (.hAddrdec role) s 1 (even.length + 1) even.length) ∧
    (s.input = even ++ rest → even.length = 4 → FailsWith (.hAddrdec role) s 13 4 0) ∧
    (s.input = even ++ [last] ++ rest → last.getLsbD 0 = true →
      (even.length = 2 → FailsWith (.hAddrdec role) s 13 3 0) ∧
      (role = .client → even.length = 1 ∨ even.length = 3 →
        FailsWith (.hAddrdec role) s 13 (even.length + 1) 0) ∧
      (role = .server → even.length = 3 → even.getD 0 0 ≠ 0 ∨ even.getD 2 0 ≠ 0 →
        FailsWith (.hAddrdec role) s 13 4 1))

/-- R184: the bytes of every descriptor H.ADDRENC accepts have bit 0 set in the last byte only, and decode back to the
descriptor with LEN set and PHYSICAL 0 when P = 0. -/
def Obligations.AddressInvariants : Prop :=
  ∀ (i : Nat) (a : Word) (bs : List Byte), addrbytes i a = .ok bs →
    (∀ k, k < bs.length → ((bs.getD k 0).getLsbD 0 = true ↔ k + 1 = bs.length)) ∧
    ∃ d, addrdec bs 0 (if a.getLsbD 16 then .server else .client) = .ok (d, bs.length) ∧
      d = 0#5 ++ BitVec.ofNat 3 bs.length ++ 0#6 ++ a.extractLsb' 15 3
        ++ (if a.getLsbD 15 then a.extractLsb' 8 7 else 0#7) ++ 0#1 ++ a.extractLsb' 0 7

/-- R185, R186, R187: H.FMTENC packs type 0xA, S and the length big-endian and refuses bits above 11; H.FMTDEC
unpacks them, refusing another type and fewer than two bytes. -/
def Obligations.FormatFieldCommands : Prop :=
  ∀ s : State, LegalCursors s →
    (∀ (len : BitVec 11) (seg : Bool),
      (s.arg0 = (0#20 ++ BitVec.ofBool seg ++ len) →
        Gives .hFmtenc s
          { out := [(0xA#4 ++ BitVec.ofBool seg ++ len).extractLsb' 8 8, len.extractLsb' 0 8]
            r0 := 0#16 ++ 0xA#4 ++ BitVec.ofBool seg ++ len }) ∧
      (∀ rest, s.input = [(0xA#4 ++ BitVec.ofBool seg ++ len).extractLsb' 8 8, len.extractLsb' 0 8] ++ rest →
        Succeeds .hFmtdec s { consumed := 2, r0 := len.setWidth 32, r1 := (BitVec.ofBool seg).setWidth 32 })) ∧
    (2 ^ 12 ≤ s.arg0.toNat → FailsWith .hFmtenc s 8 0 s.arg0.toNat) ∧
    (s.input.length < 2 → FailsWith .hFmtdec s 1 2 s.input.length) ∧
    (∀ (b c : Byte) (rest : List Byte), s.input = [b, c] ++ rest → b.extractLsb' 4 4 ≠ 0xA#4 →
      FailsWith .hFmtdec s 14 (b ++ c).toNat 0)

/-- R188, R190 to R193: H.CTLENC emits the control byte of its descriptor, SEG and LLCDIR ignored, and refuses any other
ARG0; H.CTLDEC returns the descriptor of a control byte of the five types, and any other byte is UnknownEnumValue. -/
def Obligations.ControlByteCommands : Prop :=
  ∀ s : State, LegalCursors s →
    (∀ (b : Byte) (ty : FrameType), NamesControl s.arg0 b ty →
      Gives .hCtlenc s { out := [b], r0 := b.setWidth 32 }) ∧
    ((∀ (b : Byte) (ty : FrameType), ¬ NamesControl s.arg0 b ty) → FailsWith .hCtlenc s 8 0 s.arg0.toNat) ∧
    (s.input = [] → FailsWith .hCtldec s 1 1 0) ∧
    (∀ (b : Byte) (rest : List Byte), s.input = b :: rest →
      (∀ (ty : FrameType) (d : Word), CtlForm b ty d → Gives .hCtldec s { consumed := 1, r0 := d }) ∧
      ((∀ (ty : FrameType) (d : Word), ¬ CtlForm b ty d) → FailsWith .hCtldec s 6 b.toNat 0))

/-- R194 to R198: H.FRMENC emits one complete frame with its flags, header, HCS and information (when there is one) and
FCS, consumes the payload, and returns the frame length and whether there is an HCS. -/
def Obligations.FrmEncBuildsTheFrame : Prop :=
  ∀ (s : State) (dr sr : Role) (dst src info : List Byte) (ctl : Byte) (ty : FrameType), LegalCursors s →
    NamesAddress s.arg0 dr dst → NamesAddress s.arg1 sr src → NamesControl s.arg2 ctl ty →
    EncodesInfo ty s.arg2 s.input info → bodyLength dst src info ≤ 2047 →
    Gives .hFrmenc s
      { out := frameBytes (s.arg2.getLsbD 13) dst src ctl info, consumed := s.input.length
        r0 := BitVec.ofNat 32 (bodyLength dst src info), r1 := if info = [] then 0 else 1 }

/-- R198's errors in their order: the destination, the source, the control descriptor, input on a frame type without
information, and a frame too long. -/
def Obligations.FrmEncErrors : Prop :=
  ∀ s : State, LegalCursors s →
    ((∀ (r : Role) (bs : List Byte), ¬ NamesAddress s.arg0 r bs) → FailsWith .hFrmenc s 8 0 s.arg0.toNat) ∧
    (∀ (dr : Role) (dst : List Byte), NamesAddress s.arg0 dr dst →
      ((∀ (r : Role) (bs : List Byte), ¬ NamesAddress s.arg1 r bs) → FailsWith .hFrmenc s 8 1 s.arg1.toNat) ∧
      (∀ (sr : Role) (src : List Byte), NamesAddress s.arg1 sr src →
        ((∀ (b : Byte) (ty : FrameType), ¬ NamesControl s.arg2 b ty) → FailsWith .hFrmenc s 8 2 s.arg2.toNat) ∧
        (∀ (ctl : Byte) (ty : FrameType), NamesControl s.arg2 ctl ty →
          (ty = .snrm ∨ ty = .disc ∨ ty = .rr → s.input ≠ [] → FailsWith .hFrmenc s 8 2 s.arg2.toNat) ∧
          (∀ info, EncodesInfo ty s.arg2 s.input info → 2047 < bodyLength dst src info →
            FailsWith .hFrmenc s 7 (bodyLength dst src info) 2047))))

/-- R194 to R197, R199: H.FRMDEC of a frame that fills the input region, with any addresses of the command's roles, any
control byte, and any information its type may carry: the descriptors, the S bit and LLC kind, and the length come
back, and the information with its LLC header stripped goes to OBUF. -/
def Obligations.FrmDecReadsTheFrame : Prop :=
  ∀ (s : State) (dr sr : Role) (dst src info out : List Byte) (dd sd cd : Word) (ctl : Byte) (ty : FrameType)
    (seg : Bool) (kind : Nat), LegalCursors s →
    AddrForm dr dst dd → AddrForm sr src sd → CtlForm ctl ty cd → InfoFits ty info → StripsTo ty info out kind →
    bodyLength dst src info ≤ 2047 → s.input = frameBytes seg dst src ctl info →
    Gives (.hFrmdec dr sr) s
      { out := out, consumed := s.input.length, r0 := dd, r1 := sd
        r2 := cd + BitVec.ofNat 32 (0x2000 * seg.toNat + 0x10000 * kind)
        r3 := BitVec.ofNat 32 (bodyLength dst src info + (if info = [] then 0 else 0x10000)) }

/-- R199's first errors in their order: missing flags, a body of fewer than two bytes, a format type other than 0xA, a
declared length that is not the observed one, an address that R183 refuses (its offsets counted in the body), a body
too short for a control byte and an FCS, and three or four bytes after the control byte. -/
def Obligations.FrmDecFramingErrors : Prop :=
  ∀ (s : State) (dr sr : Role), LegalCursors s →
    (s.input = [] → FailsWith (.hFrmdec dr sr) s 5 3 0) ∧
    (∀ b : Byte, s.input = [b] → FailsWith (.hFrmdec dr sr) s 5 (if b = 0x7E then 2 else 3) 0) ∧
    (∀ (b c : Byte) (body : List Byte), s.input = [b] ++ body ++ [c] →
      (b ≠ 0x7E ∨ c ≠ 0x7E →
        FailsWith (.hFrmdec dr sr) s 5 ((if b = 0x7E then 0 else 1) + (if c = 0x7E then 0 else 2)) 0) ∧
      (b = 0x7E → c = 0x7E →
        (body.length < 2 → FailsWith (.hFrmdec dr sr) s 1 2 body.length) ∧
        (∀ (f g : Byte) (rest : List Byte), body = [f, g] ++ rest →
          (f.extractLsb' 4 4 ≠ 0xA#4 → FailsWith (.hFrmdec dr sr) s 14 (f ++ g).toNat 0) ∧
          (f.extractLsb' 4 4 = 0xA#4 → (f.extractLsb' 0 3 ++ g).toNat ≠ body.length →
            FailsWith (.hFrmdec dr sr) s 3 (f.extractLsb' 0 3 ++ g).toNat body.length) ∧
          (f.extractLsb' 4 4 = 0xA#4 → (f.extractLsb' 0 3 ++ g).toNat = body.length →
            (∀ (code : Byte) (d0 d1 : Nat), AddrFault dr 2 rest code d0 d1 →
              FailsWith (.hFrmdec dr sr) s code d0 d1) ∧
            (∀ (dst x : List Byte) (dd : Word), AddrForm dr dst dd → rest = dst ++ x →
              (∀ (code : Byte) (d0 d1 : Nat), AddrFault sr (2 + dst.length) x code d0 d1 →
                FailsWith (.hFrmdec dr sr) s code d0 d1) ∧
              (∀ (src y : List Byte) (sd : Word), AddrForm sr src sd → x = src ++ y →
                (y.length < 3 → FailsWith (.hFrmdec dr sr) s 1 (2 + dst.length + src.length + 3) body.length) ∧
                (y.length = 4 ∨ y.length = 5 → FailsWith (.hFrmdec dr sr) s 14 (y.length - 1) 0)))))))

/-- R199's checksum errors: a frame whose HCS is wrong, and one whose HCS (if any) is right and whose FCS is wrong,
complete with ChecksumMismatch(computed, received), bit 16 of the computed value telling them apart. -/
def Obligations.FrmDecChecksumErrors : Prop :=
  ∀ (s : State) (dr sr : Role) (dst src info : List Byte) (dd sd : Word) (ctl h1 h2 f1 f2 : Byte) (seg : Bool),
    LegalCursors s → AddrForm dr dst dd → AddrForm sr src sd → bodyLength dst src info ≤ 2047 →
    let hdr := headerBytes seg dst src ctl info
    (info ≠ [] → s.input = [0x7E] ++ hdr ++ [h1, h2] ++ info ++ [f1, f2] ++ [0x7E] → [h1, h2] ≠ crc16 hdr false →
      FailsWith (.hFrmdec dr sr) s 4 (fromBE (crc16 hdr false)) (h1 ++ h2).toNat) ∧
    (let covered := coveredBytes seg dst src ctl info
     s.input = [0x7E] ++ covered ++ [f1, f2] ++ [0x7E] → [f1, f2] ≠ crc16 covered false →
      FailsWith (.hFrmdec dr sr) s 4 (0x10000 + fromBE (crc16 covered false)) (f1 ++ f2).toNat)

/-- R193, R197, R199's last errors, in a frame whose check sequences are right: an unknown control byte, information on
an SNRM, DISC or RR frame, and an I-frame without information. -/
def Obligations.FrmDecContentErrors : Prop :=
  ∀ (s : State) (dr sr : Role) (dst src info : List Byte) (dd sd : Word) (ctl : Byte) (seg : Bool), LegalCursors s →
    AddrForm dr dst dd → AddrForm sr src sd → bodyLength dst src info ≤ 2047 →
    s.input = frameBytes seg dst src ctl info →
    ((∀ (ty : FrameType) (cd : Word), ¬ CtlForm ctl ty cd) → FailsWith (.hFrmdec dr sr) s 6 ctl.toNat 0) ∧
    (∀ (ty : FrameType) (cd : Word), CtlForm ctl ty cd → ¬ InfoFits ty info →
      FailsWith (.hFrmdec dr sr) s 14 ctl.toNat 0)

/-- R200: H.FRMDEC, with the descriptors' roles, of what H.FRMENC made returns the addresses (with LEN set, PHYSICAL 0
when P = 0), the control descriptor with LLCDIR replaced by the LLC kind, and the payload unchanged. -/
def Obligations.FrameRoundTrip : Prop :=
  ∀ (ad as c : Word) (x : List Byte) (r : Result), frmencRule ad as c x = .ok r →
    let role := fun (a : Word) => if a.getLsbD 16 then Role.server else Role.client
    let back := fun (a : Word) => a &&& (if a.getLsbD 15 then 0x0003FFFF#32 else 0x000380FF#32)
    ∃ r', frmdecRule (role ad) (role as) r.out = .ok r' ∧ r'.consumed = r.out.length ∧ r'.out = x ∧
      r'.r0 &&& 0xF8FFFFFF#32 = back ad ∧ r'.r1 &&& 0xF8FFFFFF#32 = back as ∧
      (∃ bd, addrbytes 0 ad = .ok bd ∧ r'.r0.extractLsb' 24 3 = BitVec.ofNat 3 bd.length) ∧
      (∃ bs, addrbytes 1 as = .ok bs ∧ r'.r1.extractLsb' 24 3 = BitVec.ofNat 3 bs.length) ∧
      r'.r2 = (c &&& 0xFFFFBFFF#32) +
        (if c.extractLsb' 0 3 = 4#3 then (if c.getLsbD 14 then 0x20000#32 else 0x10000#32) else 0)
end

