-- ==== Sys2Proof/Laws/Memory.lean ====
section
/-! SUPPORT. The buffers' operations: what a read gives after a store, and that a store keeps the canonical form
and the buffer's size. -/

namespace Sys2Proof.Machine

theorem lookup_append (m m' : Memory) (k : Nat) :
    Memory.lookup (m ++ m') k = (Memory.lookup m k).or (Memory.lookup m' k) := by
  induction m with
  | nil => simp [Memory.lookup, Memory.unlisted]
  | cons c m ih =>
    by_cases h : c.1 = k
    · simp [Memory.lookup, h]
    · simp [Memory.lookup, h, ih]

theorem lookup_filter (m : Memory) (p : Nat → Bool) (k : Nat) :
    Memory.lookup (m.filter (fun c => p c.1)) k = if p k then Memory.lookup m k else none := by
  induction m with
  | nil => simp [Memory.lookup, Memory.unlisted]
  | cons c m ih =>
    by_cases hp : p c.1 <;> by_cases h : c.1 = k <;> simp_all [Memory.lookup]

theorem lookup_cellsAt (bs : List Byte) (a k : Nat) :
    Memory.lookup (cellsAt a bs) k = if a ≤ k ∧ k < a + bs.length then some (bs.getD (k - a) 0) else none := by
  induction bs generalizing a with
  | nil =>
    rw [if_neg (by simp)]
    rfl
  | cons b bs ih =>
    have hlen : (b :: bs).length = bs.length + 1 := rfl
    by_cases h : a = k
    · subst h
      simp [cellsAt, Memory.lookup]
    · simp only [cellsAt, Memory.lookup, if_neg h, ih]
      by_cases hk : a ≤ k ∧ k < a + (b :: bs).length
      · obtain ⟨j, hj⟩ : ∃ j, k - a = j + 1 := ⟨k - a - 1, by omega⟩
        have hj' : k - (a + 1) = j := by omega
        rw [if_pos hk, if_pos (by omega), hj, hj', List.getD_cons_succ]
      · rw [if_neg hk, if_neg (by omega)]

/-- What a read gives after a store: the stored byte inside the stored range, the old one outside. -/
theorem lookup_storeBytes (m : Memory) (a : Nat) (bs : List Byte) (k : Nat) :
    (m.storeBytes a bs).lookup k
      = if a ≤ k ∧ k < a + bs.length then some (bs.getD (k - a) 0) else m.lookup k := by
  cases bs with
  | nil =>
    rw [if_neg (by simp)]
    rfl
  | cons b bs =>
    simp only [Memory.storeBytes, lookup_append, lookup_cellsAt]
    rw [lookup_filter m (fun x => decide (x < a)), lookup_filter m (fun x => decide (a + (b :: bs).length ≤ x))]
    by_cases h1 : k < a
    · have h2 : ¬ (a ≤ k ∧ k < a + (b :: bs).length) := by omega
      have h3 : ¬ (a + (b :: bs).length ≤ k) := by omega
      rw [if_pos (decide_eq_true h1), if_neg h2, if_neg h2, if_neg (by simpa using h3)]
      simp
    · by_cases h2 : k < a + (b :: bs).length
      · have h3 : a ≤ k ∧ k < a + (b :: bs).length := by omega
        rw [if_neg (by simpa using h1), if_pos h3, if_pos h3]
        simp
      · have h3 : ¬ (a ≤ k ∧ k < a + (b :: bs).length) := by omega
        rw [if_neg (by simpa using h1), if_neg h3, if_neg h3, if_pos (by simp at h2 ⊢; omega)]
        simp

theorem mem_cellsAt {bs : List Byte} {a : Nat} {c : Host.Cell} (h : c ∈ cellsAt a bs) :
    a ≤ c.1 ∧ c.1 < a + bs.length := by
  induction bs generalizing a with
  | nil => simp [cellsAt] at h
  | cons b bs ih =>
    simp only [cellsAt, List.mem_cons] at h
    rcases h with rfl | h
    · simp
    · have := ih h
      simp only [List.length_cons]
      omega

theorem cellsAt_wf (a : Nat) (bs : List Byte) : (cellsAt a bs).wf := by
  induction bs generalizing a with
  | nil => simp [cellsAt, Memory.wf]
  | cons b bs ih =>
    simp only [cellsAt, Memory.wf, List.pairwise_cons]
    exact ⟨fun c hc => by have := mem_cellsAt hc; omega, ih (a + 1)⟩

/-- A store keeps the canonical form. -/
theorem storeBytes_wf {m : Memory} (h : m.wf) (a : Nat) (bs : List Byte) : (m.storeBytes a bs).wf := by
  cases bs with
  | nil => exact h
  | cons b bs =>
    simp only [Memory.storeBytes, Memory.wf, List.append_assoc, List.pairwise_append, List.mem_append]
    refine ⟨h.filter _, ⟨cellsAt_wf a _, h.filter _, ?_⟩, ?_⟩
    · intro x hx y hy
      have := mem_cellsAt hx
      have hy' : a + (b :: bs).length ≤ y.1 := of_decide_eq_true (List.mem_filter.mp hy).2
      omega
    · intro x hx y hy
      have hx' : x.1 < a := of_decide_eq_true (List.mem_filter.mp hx).2
      rcases hy with hy | hy
      · have := mem_cellsAt hy
        omega
      · have hy' : a + (b :: bs).length ≤ y.1 := of_decide_eq_true (List.mem_filter.mp hy).2
        omega

/-- A store of bytes inside a buffer stays inside it. -/
theorem storeBytes_within {m : Memory} {size : Nat} (h : Memory.within size m) {a : Nat} {bs : List Byte}
    (fits : bs = [] ∨ a + bs.length ≤ size) : Memory.within size (m.storeBytes a bs) := by
  cases bs with
  | nil => exact h
  | cons b bs =>
    intro x hx
    simp only [Memory.storeBytes, List.append_assoc, List.mem_append, List.mem_filter] at hx
    rcases hx with hx | hx | hx
    · exact h x hx.1
    · have := mem_cellsAt hx
      rcases fits with hf | hf
      · simp at hf
      · omega
    · exact h x hx.1

end Sys2Proof.Machine
end

