-- ==== Sys2Proof/Laws/State.lean ====
section
/-! SUPPORT. One lemma per field of State and per named update of it, so that no proof unfolds a record update. -/

namespace Sys2Proof.Machine

variable (s : State)

@[simp] theorem setOvr_params : (setOvr s).params = s.params := rfl
@[simp] theorem setOvr_ie : (setOvr s).ie = s.ie := rfl
@[simp] theorem setOvr_maxdepth : (setOvr s).maxdepth = s.maxdepth := rfl
@[simp] theorem setOvr_done : (setOvr s).done = s.done := rfl
@[simp] theorem setOvr_err : (setOvr s).err = s.err := rfl
@[simp] theorem setOvr_ovr : (setOvr s).ovr = true := rfl
@[simp] theorem setOvr_ecode : (setOvr s).ecode = s.ecode := rfl
@[simp] theorem setOvr_cmd : (setOvr s).cmd = s.cmd := rfl
@[simp] theorem setOvr_pending : (setOvr s).pending = s.pending := rfl
@[simp] theorem setOvr_icur : (setOvr s).icur = s.icur := rfl
@[simp] theorem setOvr_iend : (setOvr s).iend = s.iend := rfl
@[simp] theorem setOvr_ocur : (setOvr s).ocur = s.ocur := rfl
@[simp] theorem setOvr_icnt : (setOvr s).icnt = s.icnt := rfl
@[simp] theorem setOvr_ocnt : (setOvr s).ocnt = s.ocnt := rfl
@[simp] theorem setOvr_arg0 : (setOvr s).arg0 = s.arg0 := rfl
@[simp] theorem setOvr_arg1 : (setOvr s).arg1 = s.arg1 := rfl
@[simp] theorem setOvr_arg2 : (setOvr s).arg2 = s.arg2 := rfl
@[simp] theorem setOvr_res0 : (setOvr s).res0 = s.res0 := rfl
@[simp] theorem setOvr_res1 : (setOvr s).res1 = s.res1 := rfl
@[simp] theorem setOvr_res2 : (setOvr s).res2 = s.res2 := rfl
@[simp] theorem setOvr_res3 : (setOvr s).res3 = s.res3 := rfl
@[simp] theorem setOvr_edet0 : (setOvr s).edet0 = s.edet0 := rfl
@[simp] theorem setOvr_edet1 : (setOvr s).edet1 = s.edet1 := rfl
@[simp] theorem setOvr_ibuf : (setOvr s).ibuf = s.ibuf := rfl
@[simp] theorem setOvr_obuf : (setOvr s).obuf = s.obuf := rfl
@[simp] theorem setOvr_inputs : (setOvr s).inputs = s.inputs := rfl
@[simp] theorem setOvr_reads : (setOvr s).reads = s.reads := rfl
@[simp] theorem setOvr_draws : (setOvr s).draws = s.draws := rfl
@[simp] theorem setOvr_powerUps : (setOvr s).powerUps = s.powerUps := rfl

@[simp] theorem clearStatus_params (v : Word) : (clearStatus v s).params = s.params := rfl
@[simp] theorem clearStatus_ie (v : Word) : (clearStatus v s).ie = s.ie := rfl
@[simp] theorem clearStatus_maxdepth (v : Word) : (clearStatus v s).maxdepth = s.maxdepth := rfl
@[simp] theorem clearStatus_done (v : Word) : (clearStatus v s).done = (s.done && !v.getLsbD 1) := rfl
@[simp] theorem clearStatus_err (v : Word) : (clearStatus v s).err = (s.err && !v.getLsbD 2) := rfl
@[simp] theorem clearStatus_ovr (v : Word) : (clearStatus v s).ovr = (s.ovr && !v.getLsbD 3) := rfl
@[simp] theorem clearStatus_ecode (v : Word) : (clearStatus v s).ecode = s.ecode := rfl
@[simp] theorem clearStatus_cmd (v : Word) : (clearStatus v s).cmd = s.cmd := rfl
@[simp] theorem clearStatus_pending (v : Word) : (clearStatus v s).pending = s.pending := rfl
@[simp] theorem clearStatus_icur (v : Word) : (clearStatus v s).icur = s.icur := rfl
@[simp] theorem clearStatus_iend (v : Word) : (clearStatus v s).iend = s.iend := rfl
@[simp] theorem clearStatus_ocur (v : Word) : (clearStatus v s).ocur = s.ocur := rfl
@[simp] theorem clearStatus_icnt (v : Word) : (clearStatus v s).icnt = s.icnt := rfl
@[simp] theorem clearStatus_ocnt (v : Word) : (clearStatus v s).ocnt = s.ocnt := rfl
@[simp] theorem clearStatus_arg0 (v : Word) : (clearStatus v s).arg0 = s.arg0 := rfl
@[simp] theorem clearStatus_arg1 (v : Word) : (clearStatus v s).arg1 = s.arg1 := rfl
@[simp] theorem clearStatus_arg2 (v : Word) : (clearStatus v s).arg2 = s.arg2 := rfl
@[simp] theorem clearStatus_res0 (v : Word) : (clearStatus v s).res0 = s.res0 := rfl
@[simp] theorem clearStatus_res1 (v : Word) : (clearStatus v s).res1 = s.res1 := rfl
@[simp] theorem clearStatus_res2 (v : Word) : (clearStatus v s).res2 = s.res2 := rfl
@[simp] theorem clearStatus_res3 (v : Word) : (clearStatus v s).res3 = s.res3 := rfl
@[simp] theorem clearStatus_edet0 (v : Word) : (clearStatus v s).edet0 = s.edet0 := rfl
@[simp] theorem clearStatus_edet1 (v : Word) : (clearStatus v s).edet1 = s.edet1 := rfl
@[simp] theorem clearStatus_ibuf (v : Word) : (clearStatus v s).ibuf = s.ibuf := rfl
@[simp] theorem clearStatus_obuf (v : Word) : (clearStatus v s).obuf = s.obuf := rfl
@[simp] theorem clearStatus_inputs (v : Word) : (clearStatus v s).inputs = s.inputs := rfl
@[simp] theorem clearStatus_reads (v : Word) : (clearStatus v s).reads = s.reads := rfl
@[simp] theorem clearStatus_draws (v : Word) : (clearStatus v s).draws = s.draws := rfl
@[simp] theorem clearStatus_powerUps (v : Word) : (clearStatus v s).powerUps = s.powerUps := rfl

@[simp] theorem accept_params (w : Word) : (accept w s).params = s.params := rfl
@[simp] theorem accept_ie (w : Word) : (accept w s).ie = s.ie := rfl
@[simp] theorem accept_maxdepth (w : Word) : (accept w s).maxdepth = s.maxdepth := rfl
@[simp] theorem accept_done (w : Word) : (accept w s).done = false := rfl
@[simp] theorem accept_err (w : Word) : (accept w s).err = false := rfl
@[simp] theorem accept_ovr (w : Word) : (accept w s).ovr = s.ovr := rfl
@[simp] theorem accept_ecode (w : Word) : (accept w s).ecode = 0 := rfl
@[simp] theorem accept_cmd (w : Word) : (accept w s).cmd = w := rfl
@[simp] theorem accept_pending (w : Word) : (accept w s).pending = some w := rfl
@[simp] theorem accept_icur (w : Word) : (accept w s).icur = s.icur := rfl
@[simp] theorem accept_iend (w : Word) : (accept w s).iend = s.iend := rfl
@[simp] theorem accept_ocur (w : Word) : (accept w s).ocur = s.ocur := rfl
@[simp] theorem accept_icnt (w : Word) : (accept w s).icnt = s.icnt := rfl
@[simp] theorem accept_ocnt (w : Word) : (accept w s).ocnt = s.ocnt := rfl
@[simp] theorem accept_arg0 (w : Word) : (accept w s).arg0 = s.arg0 := rfl
@[simp] theorem accept_arg1 (w : Word) : (accept w s).arg1 = s.arg1 := rfl
@[simp] theorem accept_arg2 (w : Word) : (accept w s).arg2 = s.arg2 := rfl
@[simp] theorem accept_res0 (w : Word) : (accept w s).res0 = s.res0 := rfl
@[simp] theorem accept_res1 (w : Word) : (accept w s).res1 = s.res1 := rfl
@[simp] theorem accept_res2 (w : Word) : (accept w s).res2 = s.res2 := rfl
@[simp] theorem accept_res3 (w : Word) : (accept w s).res3 = s.res3 := rfl
@[simp] theorem accept_edet0 (w : Word) : (accept w s).edet0 = s.edet0 := rfl
@[simp] theorem accept_edet1 (w : Word) : (accept w s).edet1 = s.edet1 := rfl
@[simp] theorem accept_ibuf (w : Word) : (accept w s).ibuf = s.ibuf := rfl
@[simp] theorem accept_obuf (w : Word) : (accept w s).obuf = s.obuf := rfl
@[simp] theorem accept_inputs (w : Word) : (accept w s).inputs = s.inputs := rfl
@[simp] theorem accept_reads (w : Word) : (accept w s).reads = s.reads := rfl
@[simp] theorem accept_draws (w : Word) : (accept w s).draws = s.draws := rfl
@[simp] theorem accept_powerUps (w : Word) : (accept w s).powerUps = s.powerUps := rfl

@[simp] theorem writeCtrl_params (v : Word) : (writeCtrl v s).params = s.params := rfl
@[simp] theorem writeCtrl_ie (v : Word) : (writeCtrl v s).ie = v.getLsbD 0 := rfl
@[simp] theorem writeCtrl_maxdepth (v : Word) : (writeCtrl v s).maxdepth = v.extractLsb' 8 8 := rfl
@[simp] theorem writeCtrl_done (v : Word) : (writeCtrl v s).done = s.done := rfl
@[simp] theorem writeCtrl_err (v : Word) : (writeCtrl v s).err = s.err := rfl
@[simp] theorem writeCtrl_ovr (v : Word) : (writeCtrl v s).ovr = s.ovr := rfl
@[simp] theorem writeCtrl_ecode (v : Word) : (writeCtrl v s).ecode = s.ecode := rfl
@[simp] theorem writeCtrl_cmd (v : Word) : (writeCtrl v s).cmd = s.cmd := rfl
@[simp] theorem writeCtrl_pending (v : Word) : (writeCtrl v s).pending = s.pending := rfl
@[simp] theorem writeCtrl_icur (v : Word) : (writeCtrl v s).icur = s.icur := rfl
@[simp] theorem writeCtrl_iend (v : Word) : (writeCtrl v s).iend = s.iend := rfl
@[simp] theorem writeCtrl_ocur (v : Word) : (writeCtrl v s).ocur = s.ocur := rfl
@[simp] theorem writeCtrl_icnt (v : Word) : (writeCtrl v s).icnt = s.icnt := rfl
@[simp] theorem writeCtrl_ocnt (v : Word) : (writeCtrl v s).ocnt = s.ocnt := rfl
@[simp] theorem writeCtrl_arg0 (v : Word) : (writeCtrl v s).arg0 = s.arg0 := rfl
@[simp] theorem writeCtrl_arg1 (v : Word) : (writeCtrl v s).arg1 = s.arg1 := rfl
@[simp] theorem writeCtrl_arg2 (v : Word) : (writeCtrl v s).arg2 = s.arg2 := rfl
@[simp] theorem writeCtrl_res0 (v : Word) : (writeCtrl v s).res0 = s.res0 := rfl
@[simp] theorem writeCtrl_res1 (v : Word) : (writeCtrl v s).res1 = s.res1 := rfl
@[simp] theorem writeCtrl_res2 (v : Word) : (writeCtrl v s).res2 = s.res2 := rfl
@[simp] theorem writeCtrl_res3 (v : Word) : (writeCtrl v s).res3 = s.res3 := rfl
@[simp] theorem writeCtrl_edet0 (v : Word) : (writeCtrl v s).edet0 = s.edet0 := rfl
@[simp] theorem writeCtrl_edet1 (v : Word) : (writeCtrl v s).edet1 = s.edet1 := rfl
@[simp] theorem writeCtrl_ibuf (v : Word) : (writeCtrl v s).ibuf = s.ibuf := rfl
@[simp] theorem writeCtrl_obuf (v : Word) : (writeCtrl v s).obuf = s.obuf := rfl
@[simp] theorem writeCtrl_inputs (v : Word) : (writeCtrl v s).inputs = s.inputs := rfl
@[simp] theorem writeCtrl_reads (v : Word) : (writeCtrl v s).reads = s.reads := rfl
@[simp] theorem writeCtrl_draws (v : Word) : (writeCtrl v s).draws = s.draws := rfl
@[simp] theorem writeCtrl_powerUps (v : Word) : (writeCtrl v s).powerUps = s.powerUps := rfl

@[simp] theorem countDraw_params : (countDraw s).params = s.params := rfl
@[simp] theorem countDraw_ie : (countDraw s).ie = s.ie := rfl
@[simp] theorem countDraw_maxdepth : (countDraw s).maxdepth = s.maxdepth := rfl
@[simp] theorem countDraw_done : (countDraw s).done = s.done := rfl
@[simp] theorem countDraw_err : (countDraw s).err = s.err := rfl
@[simp] theorem countDraw_ovr : (countDraw s).ovr = s.ovr := rfl
@[simp] theorem countDraw_ecode : (countDraw s).ecode = s.ecode := rfl
@[simp] theorem countDraw_cmd : (countDraw s).cmd = s.cmd := rfl
@[simp] theorem countDraw_pending : (countDraw s).pending = s.pending := rfl
@[simp] theorem countDraw_icur : (countDraw s).icur = s.icur := rfl
@[simp] theorem countDraw_iend : (countDraw s).iend = s.iend := rfl
@[simp] theorem countDraw_ocur : (countDraw s).ocur = s.ocur := rfl
@[simp] theorem countDraw_icnt : (countDraw s).icnt = s.icnt := rfl
@[simp] theorem countDraw_ocnt : (countDraw s).ocnt = s.ocnt := rfl
@[simp] theorem countDraw_arg0 : (countDraw s).arg0 = s.arg0 := rfl
@[simp] theorem countDraw_arg1 : (countDraw s).arg1 = s.arg1 := rfl
@[simp] theorem countDraw_arg2 : (countDraw s).arg2 = s.arg2 := rfl
@[simp] theorem countDraw_res0 : (countDraw s).res0 = s.res0 := rfl
@[simp] theorem countDraw_res1 : (countDraw s).res1 = s.res1 := rfl
@[simp] theorem countDraw_res2 : (countDraw s).res2 = s.res2 := rfl
@[simp] theorem countDraw_res3 : (countDraw s).res3 = s.res3 := rfl
@[simp] theorem countDraw_edet0 : (countDraw s).edet0 = s.edet0 := rfl
@[simp] theorem countDraw_edet1 : (countDraw s).edet1 = s.edet1 := rfl
@[simp] theorem countDraw_ibuf : (countDraw s).ibuf = s.ibuf := rfl
@[simp] theorem countDraw_obuf : (countDraw s).obuf = s.obuf := rfl
@[simp] theorem countDraw_inputs : (countDraw s).inputs = s.inputs := rfl
@[simp] theorem countDraw_reads : (countDraw s).reads = s.reads := rfl
@[simp] theorem countDraw_draws : (countDraw s).draws = s.draws + 1 := rfl
@[simp] theorem countDraw_powerUps : (countDraw s).powerUps = s.powerUps := rfl

@[simp] theorem logRead_params (v : Word) : (logRead v s).params = s.params := rfl
@[simp] theorem logRead_ie (v : Word) : (logRead v s).ie = s.ie := rfl
@[simp] theorem logRead_maxdepth (v : Word) : (logRead v s).maxdepth = s.maxdepth := rfl
@[simp] theorem logRead_done (v : Word) : (logRead v s).done = s.done := rfl
@[simp] theorem logRead_err (v : Word) : (logRead v s).err = s.err := rfl
@[simp] theorem logRead_ovr (v : Word) : (logRead v s).ovr = s.ovr := rfl
@[simp] theorem logRead_ecode (v : Word) : (logRead v s).ecode = s.ecode := rfl
@[simp] theorem logRead_cmd (v : Word) : (logRead v s).cmd = s.cmd := rfl
@[simp] theorem logRead_pending (v : Word) : (logRead v s).pending = s.pending := rfl
@[simp] theorem logRead_icur (v : Word) : (logRead v s).icur = s.icur := rfl
@[simp] theorem logRead_iend (v : Word) : (logRead v s).iend = s.iend := rfl
@[simp] theorem logRead_ocur (v : Word) : (logRead v s).ocur = s.ocur := rfl
@[simp] theorem logRead_icnt (v : Word) : (logRead v s).icnt = s.icnt := rfl
@[simp] theorem logRead_ocnt (v : Word) : (logRead v s).ocnt = s.ocnt := rfl
@[simp] theorem logRead_arg0 (v : Word) : (logRead v s).arg0 = s.arg0 := rfl
@[simp] theorem logRead_arg1 (v : Word) : (logRead v s).arg1 = s.arg1 := rfl
@[simp] theorem logRead_arg2 (v : Word) : (logRead v s).arg2 = s.arg2 := rfl
@[simp] theorem logRead_res0 (v : Word) : (logRead v s).res0 = s.res0 := rfl
@[simp] theorem logRead_res1 (v : Word) : (logRead v s).res1 = s.res1 := rfl
@[simp] theorem logRead_res2 (v : Word) : (logRead v s).res2 = s.res2 := rfl
@[simp] theorem logRead_res3 (v : Word) : (logRead v s).res3 = s.res3 := rfl
@[simp] theorem logRead_edet0 (v : Word) : (logRead v s).edet0 = s.edet0 := rfl
@[simp] theorem logRead_edet1 (v : Word) : (logRead v s).edet1 = s.edet1 := rfl
@[simp] theorem logRead_ibuf (v : Word) : (logRead v s).ibuf = s.ibuf := rfl
@[simp] theorem logRead_obuf (v : Word) : (logRead v s).obuf = s.obuf := rfl
@[simp] theorem logRead_inputs (v : Word) : (logRead v s).inputs = s.inputs := rfl
@[simp] theorem logRead_reads (v : Word) : (logRead v s).reads = v :: s.reads := rfl
@[simp] theorem logRead_draws (v : Word) : (logRead v s).draws = s.draws := rfl
@[simp] theorem logRead_powerUps (v : Word) : (logRead v s).powerUps = s.powerUps := rfl

@[simp] theorem softReset_params : (softReset s).params = s.params := rfl
@[simp] theorem softReset_ie : (softReset s).ie = false := rfl
@[simp] theorem softReset_maxdepth : (softReset s).maxdepth = 0x20#8 := rfl
@[simp] theorem softReset_done : (softReset s).done = false := rfl
@[simp] theorem softReset_err : (softReset s).err = false := rfl
@[simp] theorem softReset_ovr : (softReset s).ovr = false := rfl
@[simp] theorem softReset_ecode : (softReset s).ecode = 0 := rfl
@[simp] theorem softReset_cmd : (softReset s).cmd = 0 := rfl
@[simp] theorem softReset_pending : (softReset s).pending = none := rfl
@[simp] theorem softReset_icur : (softReset s).icur = 0 := rfl
@[simp] theorem softReset_iend : (softReset s).iend = 0 := rfl
@[simp] theorem softReset_ocur : (softReset s).ocur = 0 := rfl
@[simp] theorem softReset_icnt : (softReset s).icnt = 0 := rfl
@[simp] theorem softReset_ocnt : (softReset s).ocnt = 0 := rfl
@[simp] theorem softReset_arg0 : (softReset s).arg0 = 0 := rfl
@[simp] theorem softReset_arg1 : (softReset s).arg1 = 0 := rfl
@[simp] theorem softReset_arg2 : (softReset s).arg2 = 0 := rfl
@[simp] theorem softReset_res0 : (softReset s).res0 = 0 := rfl
@[simp] theorem softReset_res1 : (softReset s).res1 = 0 := rfl
@[simp] theorem softReset_res2 : (softReset s).res2 = 0 := rfl
@[simp] theorem softReset_res3 : (softReset s).res3 = 0 := rfl
@[simp] theorem softReset_edet0 : (softReset s).edet0 = 0 := rfl
@[simp] theorem softReset_edet1 : (softReset s).edet1 = 0 := rfl
@[simp] theorem softReset_ibuf : (softReset s).ibuf = s.ibuf := rfl
@[simp] theorem softReset_obuf : (softReset s).obuf = s.obuf := rfl
@[simp] theorem softReset_inputs : (softReset s).inputs = s.inputs := rfl
@[simp] theorem softReset_reads : (softReset s).reads = s.reads := rfl
@[simp] theorem softReset_draws : (softReset s).draws = s.draws := rfl
@[simp] theorem softReset_powerUps : (softReset s).powerUps = s.powerUps := rfl

@[simp] theorem powerOnReset_params : (powerOnReset s).params = s.params := rfl
@[simp] theorem powerOnReset_ie : (powerOnReset s).ie = false := rfl
@[simp] theorem powerOnReset_maxdepth : (powerOnReset s).maxdepth = 0x20#8 := rfl
@[simp] theorem powerOnReset_done : (powerOnReset s).done = false := rfl
@[simp] theorem powerOnReset_err : (powerOnReset s).err = false := rfl
@[simp] theorem powerOnReset_ovr : (powerOnReset s).ovr = false := rfl
@[simp] theorem powerOnReset_ecode : (powerOnReset s).ecode = 0 := rfl
@[simp] theorem powerOnReset_cmd : (powerOnReset s).cmd = 0 := rfl
@[simp] theorem powerOnReset_pending : (powerOnReset s).pending = none := rfl
@[simp] theorem powerOnReset_icur : (powerOnReset s).icur = 0 := rfl
@[simp] theorem powerOnReset_iend : (powerOnReset s).iend = 0 := rfl
@[simp] theorem powerOnReset_ocur : (powerOnReset s).ocur = 0 := rfl
@[simp] theorem powerOnReset_icnt : (powerOnReset s).icnt = 0 := rfl
@[simp] theorem powerOnReset_ocnt : (powerOnReset s).ocnt = 0 := rfl
@[simp] theorem powerOnReset_arg0 : (powerOnReset s).arg0 = 0 := rfl
@[simp] theorem powerOnReset_arg1 : (powerOnReset s).arg1 = 0 := rfl
@[simp] theorem powerOnReset_arg2 : (powerOnReset s).arg2 = 0 := rfl
@[simp] theorem powerOnReset_res0 : (powerOnReset s).res0 = 0 := rfl
@[simp] theorem powerOnReset_res1 : (powerOnReset s).res1 = 0 := rfl
@[simp] theorem powerOnReset_res2 : (powerOnReset s).res2 = 0 := rfl
@[simp] theorem powerOnReset_res3 : (powerOnReset s).res3 = 0 := rfl
@[simp] theorem powerOnReset_edet0 : (powerOnReset s).edet0 = 0 := rfl
@[simp] theorem powerOnReset_edet1 : (powerOnReset s).edet1 = 0 := rfl
@[simp] theorem powerOnReset_ibuf : (powerOnReset s).ibuf = [] := rfl
@[simp] theorem powerOnReset_obuf : (powerOnReset s).obuf = [] := rfl
@[simp] theorem powerOnReset_inputs : (powerOnReset s).inputs = s.inputs := rfl
@[simp] theorem powerOnReset_reads : (powerOnReset s).reads = s.reads := rfl
@[simp] theorem powerOnReset_draws : (powerOnReset s).draws = s.draws := rfl
@[simp] theorem powerOnReset_powerUps : (powerOnReset s).powerUps = s.powerUps + 1 := rfl

@[simp] theorem failWith_params (e : CmdError) : (failWith e s).params = s.params := rfl
@[simp] theorem failWith_ie (e : CmdError) : (failWith e s).ie = s.ie := rfl
@[simp] theorem failWith_maxdepth (e : CmdError) : (failWith e s).maxdepth = s.maxdepth := rfl
@[simp] theorem failWith_done (e : CmdError) : (failWith e s).done = true := rfl
@[simp] theorem failWith_err (e : CmdError) : (failWith e s).err = true := rfl
@[simp] theorem failWith_ovr (e : CmdError) : (failWith e s).ovr = s.ovr := rfl
@[simp] theorem failWith_ecode (e : CmdError) : (failWith e s).ecode = e.code := rfl
@[simp] theorem failWith_cmd (e : CmdError) : (failWith e s).cmd = s.cmd := rfl
@[simp] theorem failWith_pending (e : CmdError) : (failWith e s).pending = none := rfl
@[simp] theorem failWith_icur (e : CmdError) : (failWith e s).icur = s.icur := rfl
@[simp] theorem failWith_iend (e : CmdError) : (failWith e s).iend = s.iend := rfl
@[simp] theorem failWith_ocur (e : CmdError) : (failWith e s).ocur = s.ocur := rfl
@[simp] theorem failWith_icnt (e : CmdError) : (failWith e s).icnt = 0 := rfl
@[simp] theorem failWith_ocnt (e : CmdError) : (failWith e s).ocnt = 0 := rfl
@[simp] theorem failWith_arg0 (e : CmdError) : (failWith e s).arg0 = s.arg0 := rfl
@[simp] theorem failWith_arg1 (e : CmdError) : (failWith e s).arg1 = s.arg1 := rfl
@[simp] theorem failWith_arg2 (e : CmdError) : (failWith e s).arg2 = s.arg2 := rfl
@[simp] theorem failWith_res0 (e : CmdError) : (failWith e s).res0 = 0 := rfl
@[simp] theorem failWith_res1 (e : CmdError) : (failWith e s).res1 = 0 := rfl
@[simp] theorem failWith_res2 (e : CmdError) : (failWith e s).res2 = 0 := rfl
@[simp] theorem failWith_res3 (e : CmdError) : (failWith e s).res3 = 0 := rfl
@[simp] theorem failWith_edet0 (e : CmdError) : (failWith e s).edet0 = e.det0 := rfl
@[simp] theorem failWith_edet1 (e : CmdError) : (failWith e s).edet1 = e.det1 := rfl
@[simp] theorem failWith_ibuf (e : CmdError) : (failWith e s).ibuf = s.ibuf := rfl
@[simp] theorem failWith_obuf (e : CmdError) : (failWith e s).obuf = s.obuf := rfl
@[simp] theorem failWith_inputs (e : CmdError) : (failWith e s).inputs = s.inputs := rfl
@[simp] theorem failWith_reads (e : CmdError) : (failWith e s).reads = s.reads := rfl
@[simp] theorem failWith_draws (e : CmdError) : (failWith e s).draws = s.draws := rfl
@[simp] theorem failWith_powerUps (e : CmdError) : (failWith e s).powerUps = s.powerUps := rfl

@[simp] theorem commit_params (r : Result) : (commit r s).params = s.params := rfl
@[simp] theorem commit_ie (r : Result) : (commit r s).ie = s.ie := rfl
@[simp] theorem commit_maxdepth (r : Result) : (commit r s).maxdepth = s.maxdepth := rfl
@[simp] theorem commit_done (r : Result) : (commit r s).done = true := rfl
@[simp] theorem commit_err (r : Result) : (commit r s).err = false := rfl
@[simp] theorem commit_ovr (r : Result) : (commit r s).ovr = s.ovr := rfl
@[simp] theorem commit_ecode (r : Result) : (commit r s).ecode = 0 := rfl
@[simp] theorem commit_cmd (r : Result) : (commit r s).cmd = s.cmd := rfl
@[simp] theorem commit_pending (r : Result) : (commit r s).pending = none := rfl
@[simp] theorem commit_icur (r : Result) : (commit r s).icur = s.icur + BitVec.ofNat 32 r.consumed := rfl
@[simp] theorem commit_iend (r : Result) : (commit r s).iend = s.iend := rfl
@[simp] theorem commit_ocur (r : Result) : (commit r s).ocur = s.ocur + BitVec.ofNat 32 r.out.length := rfl
@[simp] theorem commit_icnt (r : Result) : (commit r s).icnt = BitVec.ofNat 32 r.consumed := rfl
@[simp] theorem commit_ocnt (r : Result) : (commit r s).ocnt = BitVec.ofNat 32 r.out.length := rfl
@[simp] theorem commit_arg0 (r : Result) : (commit r s).arg0 = s.arg0 := rfl
@[simp] theorem commit_arg1 (r : Result) : (commit r s).arg1 = s.arg1 := rfl
@[simp] theorem commit_arg2 (r : Result) : (commit r s).arg2 = s.arg2 := rfl
@[simp] theorem commit_res0 (r : Result) : (commit r s).res0 = r.r0 := rfl
@[simp] theorem commit_res1 (r : Result) : (commit r s).res1 = r.r1 := rfl
@[simp] theorem commit_res2 (r : Result) : (commit r s).res2 = r.r2 := rfl
@[simp] theorem commit_res3 (r : Result) : (commit r s).res3 = r.r3 := rfl
@[simp] theorem commit_edet0 (r : Result) : (commit r s).edet0 = 0 := rfl
@[simp] theorem commit_edet1 (r : Result) : (commit r s).edet1 = 0 := rfl
@[simp] theorem commit_ibuf (r : Result) : (commit r s).ibuf = s.ibuf := rfl
@[simp] theorem commit_obuf (r : Result) : (commit r s).obuf = s.obuf.storeBytes s.ocur.toNat r.out := rfl
@[simp] theorem commit_inputs (r : Result) : (commit r s).inputs = s.inputs := rfl
@[simp] theorem commit_reads (r : Result) : (commit r s).reads = s.reads := rfl
@[simp] theorem commit_draws (r : Result) : (commit r s).draws = s.draws := rfl
@[simp] theorem commit_powerUps (r : Result) : (commit r s).powerUps = s.powerUps := rfl

@[simp] theorem setOvr_busy : (setOvr s).busy = s.busy := rfl
@[simp] theorem clearStatus_busy (v : Word) : (clearStatus v s).busy = s.busy := rfl
@[simp] theorem accept_busy (w : Word) : (accept w s).busy = true := rfl
@[simp] theorem writeCtrl_busy (v : Word) : (writeCtrl v s).busy = s.busy := rfl
@[simp] theorem countDraw_busy : (countDraw s).busy = s.busy := rfl
@[simp] theorem logRead_busy (v : Word) : (logRead v s).busy = s.busy := rfl
@[simp] theorem softReset_busy : (softReset s).busy = false := rfl
@[simp] theorem powerOnReset_busy : (powerOnReset s).busy = false := rfl
@[simp] theorem failWith_busy (e : CmdError) : (failWith e s).busy = false := rfl
@[simp] theorem commit_busy (r : Result) : (commit r s).busy = false := rfl

/-- BUSY does not depend on the list of inputs. -/
@[simp] theorem busy_withInputs (l : List Input) : (State.busy { s with inputs := l }) = s.busy := rfl

/-- BUSY = 1 exactly when a command word is latched (R36). -/
theorem busy_iff : s.busy = true ↔ ∃ w, s.pending = some w := Option.isSome_iff_exists

/-- BUSY = 0 exactly when no command word is latched (R36). -/
theorem not_busy_iff : s.busy = false ↔ s.pending = none := by simp [State.busy]

end Sys2Proof.Machine
end

