-- ==== Sys2Proof/Laws/Ops.lean ====
section
/-! SUPPORT. What the shared operations of Machine/Ops.lean and Machine/Operands.lean can do, each said once. -/

namespace Sys2Proof.Machine

/-- A `raiseIf` before a rule: the error when its condition holds, the rest of the rule otherwise. -/
@[simp] theorem raiseIf_bind {α : Type} (p : Prop) [Decidable p] (e : CmdError) (f : Unit → Except CmdError α) :
    (raiseIf p e >>= f) = if p then .error e else f () := by
  by_cases h : p <;> simp [raiseIf, h, Bind.bind, Except.bind]

/-- A `need` before a rule. -/
@[simp] theorem need_bind {α : Type} (x : List Byte) (n : Nat) (f : Unit → Except CmdError α) :
    (need x n >>= f) = if n > x.length then .error (.insufficientData n x.length) else f () := by
  simp [need]

theorem preCheck_none_iff (s : State) : preCheck s = none ↔ LegalCursors s := by
  unfold preCheck LegalCursors
  split
  · simp; omega
  · split
    · simp; omega
    · split <;> simp <;> omega

/-- The OBUF bytes after a commit: OUT from OCUR on, every other byte as before. -/
theorem commit_obufByte (r : Result) (s : State) (k : Nat) :
    (commit r s).obufByte k
      = if s.ocur.toNat ≤ k ∧ k < s.ocur.toNat + r.out.length then r.out.getD (k - s.ocur.toNat) 0
        else s.obufByte k := by
  simp only [State.obufByte, commit_obuf, commit_powerUps, lookup_storeBytes]
  split <;> simp

/-- Everything a commit does (R38). -/
theorem committed_commit (r : Result) (s : State) : Committed s (commit r s) r where
  same := by constructor <;> rfl
  written k hk := by
    rw [commit_obufByte, if_pos (by omega)]
    simp
  kept a ha := by rw [commit_obufByte, if_neg (by omega)]
  icur := rfl
  ocur := rfl
  icnt := rfl
  ocnt := rfl
  res0 := rfl
  res1 := rfl
  res2 := rfl
  res3 := rfl
  edet0 := rfl
  edet1 := rfl
  ecode := rfl
  err := rfl
  done := rfl
  idle := rfl

/-- Everything an error completion does (R242). -/
theorem failed_failWith (e : CmdError) (s : State) : Failed s (failWith e s) e.code e.det0 e.det1 := by
  constructor
  · constructor <;> rfl
  all_goals rfl

/-- What `runCommand` can do: one of the pre-checks fails, the rule raises an error, the output does not fit, or
the result is committed. -/
theorem runCommand_cases (rule : Except CmdError Result) (s : State) :
    (∃ e, preCheck s = some e ∧ runCommand rule s = .next (failWith e s)) ∨
    (LegalCursors s ∧ ∃ e, rule = .error e ∧ runCommand rule s = .next (failWith e s)) ∨
    (LegalCursors s ∧ ∃ r, rule = .ok r ∧ s.room < r.out.length ∧
      runCommand rule s = .next (failWith (.outputOverflow r.out.length s.room) s)) ∨
    (LegalCursors s ∧ ∃ r, rule = .ok r ∧ r.out.length ≤ s.room ∧ runCommand rule s = .next (commit r s)) := by
  cases hp : preCheck s with
  | some e => exact .inl ⟨e, rfl, by simp [runCommand, hp]⟩
  | none =>
    have hl := (preCheck_none_iff s).mp hp
    cases rule with
    | error e => exact .inr (.inl ⟨hl, e, rfl, by simp [runCommand, hp, complete]⟩)
    | ok r =>
      by_cases h : s.room < r.out.length
      · exact .inr (.inr (.inl ⟨hl, r, rfl, h, by simp [runCommand, hp, complete, h]⟩))
      · exact .inr (.inr (.inr ⟨hl, r, rfl, by omega, by simp [runCommand, hp, complete, h]⟩))

/-- A rule that raises an error, with legal cursors. -/
theorem runCommand_error {s : State} (h : LegalCursors s) (e : CmdError) :
    runCommand (.error e) s = .next (failWith e s) := by
  simp [runCommand, (preCheck_none_iff s).mpr h, complete]

/-- A rule that gives a result that fits, with legal cursors. -/
theorem runCommand_ok {s : State} (h : LegalCursors s) {r : Result} (fits : r.out.length ≤ s.room) :
    runCommand (.ok r) s = .next (commit r s) := by
  simp [runCommand, (preCheck_none_iff s).mpr h, complete, Nat.not_lt.mpr fits]

/-- A rule that gives a result that does not fit, with legal cursors. -/
theorem runCommand_overflow {s : State} (h : LegalCursors s) {r : Result} (tooLong : s.room < r.out.length) :
    runCommand (.ok r) s = .next (failWith (.outputOverflow r.out.length s.room) s) := by
  simp [runCommand, (preCheck_none_iff s).mpr h, complete, tooLong]

/-- The length of the input region with legal cursors is `avail`. -/
@[simp] theorem input_length (s : State) : s.input.length = s.avail := by simp [State.input]

end Sys2Proof.Machine
end

