-- ==== Sys2Proof/Laws/Axdr.lean ====
section
/-! SUPPORT. What the A-XDR parsers can do, each said once: they move forward inside the input, and the walk of AX.SKIP
does not depend on its fuel (log entry 13). -/

namespace Sys2Proof.Machine

/-- A bind that succeeds: its first part did, and so did the rest on that part's value. -/
theorem bind_ok {α β : Type} {m : Except CmdError α} {f : α → Except CmdError β} {b : β} (h : (m >>= f) = .ok b) :
    ∃ a, m = .ok a ∧ f a = .ok b := by
  cases m with
  | error e => cases h
  | ok a => exact ⟨a, rfl, h⟩

/-- R143: a length that `lendec` reads takes at least one byte, all of it inside the input. -/
theorem lendec_within {x : List Byte} {k v n : Nat} (h : lendec x k = .ok (v, n)) : 1 ≤ n ∧ k + n ≤ x.length := by
  simp only [lendec, need_bind, raiseIf_bind] at h
  split at h
  · cases h
  · split at h
    · cases h; omega
    · split at h
      · cases h
      · split at h
        · cases h
        · split at h
          · cases h
          · cases h; omega

/-- R156: an item that `item` parses takes at least one byte, all of it inside the input. -/
theorem item_within {x : List Byte} {k : Nat} {it : Item} (h : item x k = .ok it) :
    k < it.next ∧ it.next ≤ x.length := by
  have int : ∀ t s w, intItem x k t s w = .ok it → k < it.next ∧ it.next ≤ x.length := by
    intro t s w h
    simp only [intItem, need_bind] at h
    split at h
    · cases h
    · cases h; simp; omega
  have str : ∀ t, stringItem x k t = .ok it → k < it.next ∧ it.next ≤ x.length := by
    intro t h
    obtain ⟨⟨len, n⟩, hl, h⟩ := bind_ok h
    have := lendec_within hl
    simp only [need_bind] at h
    split at h
    · cases h
    · cases h; simp; omega
  have box : ∀ t, containerItem x k t = .ok it → k < it.next ∧ it.next ≤ x.length := by
    intro t h
    obtain ⟨⟨len, n⟩, hl, h⟩ := bind_ok h
    have := lendec_within hl
    cases h; simp; omega
  simp only [item, need_bind] at h
  split at h
  · cases h
  · split at h
    · cases h; simp; omega
    · split at h
      · cases h
      · cases h; simp; omega
    · exact int _ _ _ h
    · exact int _ _ _ h
    · exact int _ _ _ h
    · exact int _ _ _ h
    · exact int _ _ _ h
    · exact int _ _ _ h
    · exact str _ h
    · exact str _ h
    · exact box _ h
    · exact box _ h
    · split at h
      · cases h
      · cases h; simp; omega
    · cases h

/-- Past the end of the input there is no item: `item` raises InsufficientData for the next byte. -/
theorem item_past_end {x : List Byte} {k : Nat} (h : x.length ≤ k) :
    item x k = .error (.insufficientData (k + 1) x.length) := by
  simp only [item, need_bind]
  rw [if_pos (by omega)]

/-- R160: a walk that succeeds moves forward and stays inside the input. -/
theorem walkItems_within {x : List Byte} {lim : Nat} : ∀ {fuel n d : Nat} {w v : Walk},
    walkItems x lim fuel n d w = .ok v → w.next ≤ v.next := by
  intro fuel
  induction fuel with
  | zero =>
    intro n d w v h
    cases n with
    | zero => cases h; exact Nat.le_refl _
    | succ n => simp only [walkItems] at h; split at h <;> cases h
  | succ fuel ih =>
    intro n d w v h
    cases n with
    | zero => cases h; exact Nat.le_refl _
    | succ n =>
      simp only [walkItems] at h
      split at h
      · cases h
      · obtain ⟨it, hi, h⟩ := bind_ok h
        have h1 := (item_within hi).1
        split at h
        · obtain ⟨b, hb, h⟩ := bind_ok h
          exact Nat.le_trans (Nat.le_of_lt h1) (Nat.le_trans (ih hb) (ih h))
        · exact Nat.le_trans (Nat.le_of_lt h1) (ih h)

/-- R160 (log entry 13): with fuel for the bytes left, more fuel changes nothing: the fuel never decides a walk. -/
theorem walkItems_fuel {x : List Byte} {lim : Nat} : ∀ {fuel n d : Nat} {w : Walk}, x.length ≤ fuel + w.next →
    walkItems x lim (fuel + 1) n d w = walkItems x lim fuel n d w := by
  intro fuel
  induction fuel with
  | zero =>
    intro n d w h
    cases n with
    | zero => rfl
    | succ n =>
      simp only [walkItems]
      rw [item_past_end (by omega)]
      rfl
  | succ fuel ih =>
    intro n d w h
    cases n with
    | zero => rfl
    | succ n =>
      rw [walkItems, walkItems]
      split
      · rfl
      · cases hi : item x w.next with
        | error e => rfl
        | ok it =>
          have h1 := (item_within hi).1
          have e : ∀ m d v, w.next < Walk.next v →
              walkItems x lim (fuel + 1) m d v = walkItems x lim fuel m d v := fun m d v hv => ih (by omega)
          simp only [bind, Except.bind]
          rw [e _ _ _ h1]
          split
          · cases hb : walkItems x lim fuel it.value.toNat (d + 1)
                { next := it.next, maxd := max w.maxd d, nodes := w.nodes + 1 } with
            | error _ => rfl
            | ok b => exact e _ _ _ (Nat.lt_of_lt_of_le h1 (walkItems_within hb))
          · exact e _ _ _ h1

end Sys2Proof.Machine
end

