-- ==== Sys2Proof/Laws/Bus.lean ====
section
/-! SUPPORT. What a host access can do, each said once. -/

namespace Sys2Proof.Machine

/-- A guarded write: dropped with OVR set while busy, performed otherwise (R33). -/
theorem unlessBusy_cases (f : State → State) (s : State) :
    (s.busy = true ∧ unlessBusy f s = setOvr s) ∨ (s.busy = false ∧ unlessBusy f s = f s) := by
  cases h : s.busy <;> simp [unlessBusy, h]

/-- What a host read can do: it logs a value, and it may count one draw; nothing else (R68). -/
theorem busRead_cases (w : Width) (a : Offset) (s : State) :
    ∃ v, busRead w a s = logRead v s ∨ busRead w a s = countDraw (logRead v s) := by
  unfold busRead readBuffer
  split <;> (try split) <;> (try split) <;> first | exact ⟨_, .inl rfl⟩ | exact ⟨_, .inr rfl⟩

/-- What a register write can do. -/
theorem writeReg_cases (r : Reg) (v : Word) (s : State) :
    writeReg r v s = s ∨
    (r = .ctrl ∧ v.getLsbD 1 = true ∧ writeReg r v s = softReset s) ∨
    (r = .status ∧ writeReg r v s = clearStatus v s) ∨
    (s.busy = true ∧ writeReg r v s = setOvr s) ∨
    (s.busy = false ∧
      ((r = .ctrl ∧ v.getLsbD 1 = false ∧ writeReg r v s = writeCtrl v s) ∨
       (r = .cmd ∧ writeReg r v s = accept v s) ∨
       (r = .icur ∧ writeReg r v s = { s with icur := v }) ∨
       (r = .iend ∧ writeReg r v s = { s with iend := v }) ∨
       (r = .ocur ∧ writeReg r v s = { s with ocur := v }) ∨
       (r = .arg0 ∧ writeReg r v s = { s with arg0 := v }) ∨
       (r = .arg1 ∧ writeReg r v s = { s with arg1 := v }) ∨
       (r = .arg2 ∧ writeReg r v s = { s with arg2 := v }))) := by
  cases hb : s.busy <;> cases r <;> simp [writeReg, unlessBusy, hb]
  all_goals (cases hv : v.getLsbD 1 <;> simp_all)

/-- What a host write can do: a register write, a buffer write inside the buffer, a drop, or nothing. -/
theorem busWrite_cases (w : Width) (a : Offset) (v : Word) (s : State) :
    busWrite w a v s = s ∨
    (∃ r, busWrite w a v s = writeReg r v s) ∨
    (s.busy = true ∧ busWrite w a v s = setOvr s) ∨
    (s.busy = false ∧ ∃ i bs, i + bs.length ≤ s.params.ibufSize ∧
      busWrite w a v s = { s with ibuf := s.ibuf.storeBytes i bs }) ∨
    (s.busy = false ∧ ∃ i bs, i + bs.length ≤ s.params.obufSize ∧
      busWrite w a v s = { s with obuf := s.obuf.storeBytes i bs }) := by
  unfold busWrite
  split
  · split
    · exact .inl rfl
    · exact .inr (.inl ⟨_, rfl⟩)
  · rename_i i _
    split
    · rename_i h
      have hlen : i + (lanesInside s.params.ibufSize i w.bytes v).length ≤ s.params.ibufSize := by
        simp only [lanesInside, List.length_take]
        omega
      rcases unlessBusy_cases (fun s => { s with ibuf := s.ibuf.storeBytes i (lanesInside s.params.ibufSize i w.bytes v) }) s
        with ⟨hb, he⟩ | ⟨hb, he⟩
      · exact .inr (.inr (.inl ⟨hb, he⟩))
      · exact .inr (.inr (.inr (.inl ⟨hb, i, _, hlen, he⟩)))
    · exact .inl rfl
  · rename_i i _
    split
    · rename_i h
      have hlen : i + (lanesInside s.params.obufSize i w.bytes v).length ≤ s.params.obufSize := by
        simp only [lanesInside, List.length_take]
        omega
      rcases unlessBusy_cases (fun s => { s with obuf := s.obuf.storeBytes i (lanesInside s.params.obufSize i w.bytes v) }) s
        with ⟨hb, he⟩ | ⟨hb, he⟩
      · exact .inr (.inr (.inl ⟨hb, he⟩))
      · exact .inr (.inr (.inr (.inr ⟨hb, i, _, hlen, he⟩)))
    · exact .inl rfl
  · exact .inl rfl

end Sys2Proof.Machine
end

