-- ==== Sys2Proof/Laws/Exec.lean ====
section
/-! SUPPORT. The step's inversion: every command runs its rule through `runCommand`, and what one step can do. -/

namespace Sys2Proof.Machine

/-- The rule a command runs (the body each meaning hands to `runCommand`). -/
def ruleOf (i : Instr) (s : State) : Except CmdError Result :=
  match i with
  | .nop => .ok {}
  | .crcHcs l => crcRule l s.input
  | .crcFcs l => crcRule l s.input
  | .berEnc tl => berEncRule tl s.arg0 s.input
  | .berDec tl e p => berDecRule tl e p s.arg0 s.input
  | .axLenenc => lenencRule s.arg0
  | .axLendec => lendecRule s.input
  | .axEnc tag => axEncRule tag s.arg0 s.input
  | .axDec e tag => axDecRule e tag s.input
  | .axSkip => skipRule s.maxdepth s.input
  | .axOpt => optRule s.input
  | .axFixed n => fixedRule n s.input
  | .axVar t => varRule t s.input
  | .axPeek => peekRule s.input
  | .hAddrenc => addrencRule s.arg0
  | .hAddrdec r => addrdecRule r s.input
  | .hFmtenc => fmtencRule s.arg0
  | .hFmtdec => fmtdecRule s.input
  | .hCtlenc => ctlencRule s.arg0
  | .hCtldec => ctldecRule s.input
  | .hFrmenc => frmencRule s.arg0 s.arg1 s.arg2 s.input
  | .hFrmdec dr sr => frmdecRule dr sr s.input

/-- Every command is its rule run by `runCommand`. -/
theorem exec_eq (i : Instr) (s : State) : exec i s = runCommand (ruleOf i s) s := by cases i <;> rfl

/-- What a command can do: an error completion, or the commit of a result that fits, with legal cursors. -/
theorem exec_cases (i : Instr) (s : State) :
    (∃ e, exec i s = .next (failWith e s)) ∨
    (∃ r, LegalCursors s ∧ r.out.length ≤ s.room ∧ ruleOf i s = .ok r ∧ exec i s = .next (commit r s)) := by
  rw [exec_eq]
  rcases runCommand_cases (ruleOf i s) s with ⟨e, _, h⟩ | ⟨_, e, _, h⟩ | ⟨_, r, _, _, h⟩ | ⟨hl, r, hr, fits, h⟩
  · exact .inl ⟨_, h⟩
  · exact .inl ⟨_, h⟩
  · exact .inl ⟨_, h⟩
  · exact .inr ⟨r, hl, fits, hr, h⟩

/-- What `engineTurn` can do: nothing while idle, run a legal word, or complete an illegal one (R83). -/
theorem engineTurn_cases (s : State) :
    (s.pending = none ∧ engineTurn s = .next s) ∨
    (∃ w i, s.pending = some w ∧ decodeWord w = .ok i ∧ engineTurn s = exec i s) ∨
    (∃ w e, s.pending = some w ∧ decodeWord w = .error e ∧
      engineTurn s = .next (failWith (.illegalCommand w.toNat) s)) := by
  cases hp : s.pending with
  | none => exact .inl ⟨rfl, by simp [engineTurn, hp]⟩
  | some w =>
    cases hd : decodeWord w with
    | ok i => exact .inr (.inl ⟨w, i, rfl, hd, by simp [engineTurn, hp, runWord, hd]⟩)
    | error e => exact .inr (.inr ⟨w, e, rfl, hd, by simp [engineTurn, hp, runWord, hd]⟩)

/-- What one step can do: the engine's turn when nothing else is to come, or the oldest input. -/
theorem step_cases (s : State) :
    (s.inputs = [] ∧ step s = engineTurn s) ∨
    (∃ rest, s.inputs = .engine :: rest ∧ step s = engineTurn { s with inputs := rest }) ∨
    (∃ rest, s.inputs = .powerOn :: rest ∧ step s = .next (powerOnReset { s with inputs := rest })) ∨
    (∃ acc rest, s.inputs = .host acc :: rest ∧ step s = .next (busAccess acc { s with inputs := rest })) := by
  cases hi : s.inputs with
  | nil => exact .inl ⟨rfl, by simp [step, advance, hi]⟩
  | cons i rest =>
    cases i with
    | engine => exact .inr (.inl ⟨rest, rfl, by simp [step, advance, hi, perform]⟩)
    | powerOn => exact .inr (.inr (.inl ⟨rest, rfl, by simp [step, advance, hi, perform]⟩))
    | host acc => exact .inr (.inr (.inr ⟨acc, rest, rfl, by simp [step, advance, hi, perform]⟩))

end Sys2Proof.Machine
end

