-- ==== Sys2Proof/Laws/Operands.lean ====
section
/-! SUPPORT. The pseudocode primitives of Machine/Operands.lean on lists that are written out: lengths, values and the
parts of an input that is a prefix and the rest. -/

namespace Sys2Proof.Machine

@[simp] theorem beBytes_length (n v : Nat) : (beBytes n v).length = n := by
  induction n with
  | zero => rfl
  | succ n ih => simp [beBytes, ih]

@[simp] theorem fromBE_nil : fromBE [] = 0 := rfl

theorem fromBE_append_one (x : List Byte) (b : Byte) : fromBE (x ++ [b]) = 256 * fromBE x + b.toNat := by
  simp [fromBE]

theorem fromBE_cons (b : Byte) (x : List Byte) : fromBE (b :: x) = b.toNat * 256 ^ x.length + fromBE x := by
  induction x using List.reverseRecOn with
  | nil => simp [fromBE]
  | append_singleton x c ih =>
    rw [← List.cons_append, fromBE_append_one, ih, fromBE_append_one]
    simp [pow_succ]
    ring

/-- R7: the value of an n-byte list is below 2^(8n). -/
theorem fromBE_lt (x : List Byte) : fromBE x < 256 ^ x.length := by
  induction x with
  | nil => simp
  | cons b x ih =>
    rw [fromBE_cons, List.length_cons, pow_succ]
    have hb := b.isLt
    calc b.toNat * 256 ^ x.length + fromBE x < b.toNat * 256 ^ x.length + 256 ^ x.length := by omega
      _ = (b.toNat + 1) * 256 ^ x.length := by ring
      _ ≤ 256 * 256 ^ x.length := Nat.mul_le_mul_right _ (by omega)
      _ = 256 ^ x.length * 256 := by ring

/-- R7: `fromBE(BE_n(v))` is v mod 2^(8n). -/
theorem fromBE_beBytes (n v : Nat) : fromBE (beBytes n v) = v % 256 ^ n := by
  induction n with
  | zero => simp [beBytes, Nat.mod_one]
  | succ n ih =>
    rw [beBytes, fromBE_cons, beBytes_length, ih, pow_succ, Nat.mod_mul, BitVec.toNat_ofNat]
    simp [Nat.mul_comm, Nat.add_comm]

@[simp] theorem byteAt_zero (b : Byte) (x : List Byte) : byteAt (b :: x) 0 = b := rfl

/-- The bytes of a part `y` of an input, at the offset where it begins. -/
theorem bytesAt_middle (x y z : List Byte) : bytesAt (x ++ y ++ z) x.length y.length = y := by
  simp [bytesAt]

/-- The byte of an input right after the part `x`. -/
theorem byteAt_middle (x : List Byte) (b : Byte) (z : List Byte) : byteAt (x ++ b :: z) x.length = b := by
  simp [byteAt]

@[simp] theorem bytesAt_length (x : List Byte) (k n : Nat) : (bytesAt x k n).length = min n (x.length - k) := by
  simp [bytesAt]

end Sys2Proof.Machine
end

