-- ==== Sys2Proof/Laws/PerInstr.lean ====
section
/-! SUPPORT. Statements for every command as syntax, one lemma per constructor: the family OpcodeField says that a
command's word carries its opcode in bits 7:0 (spec 30_encoding.md R80, R82). -/

namespace Sys2Proof.Laws

/-- The opcode bits of a packed word are its opcode. -/
theorem opField_packWord (imm : BitVec 16) (fl op : BitVec 8) : opField (packWord imm fl op) = op := by
  ext i hi
  have h1 : i < 16 := by omega
  simp [opField, packWord, hi, h1]
  omega

/-- The FL bits of a packed word are its flags byte. -/
theorem flField_packWord (imm : BitVec 16) (fl op : BitVec 8) : flField (packWord imm fl op) = fl := by
  ext i hi
  have h1 : 8 + i < 16 := by omega
  have h2 : 8 + i < 32 := by omega
  have h3 : i < 32 := by omega
  simp [flField, packWord, hi, h1, h2]

/-- The IMM bits of a packed word are its immediate. -/
theorem immField_packWord (imm : BitVec 16) (fl op : BitVec 8) : immField (packWord imm fl op) = imm := by
  ext i hi
  have h1 : 16 + i < 32 := by omega
  have h3 : 8 ≤ 16 + i - 8 := by omega
  simp [immField, packWord, hi, h1, BitVec.getLsbD_of_ge fl _ h3, BitVec.getLsbD_of_ge op (16 + i) (by omega)]

/-- OP of the command's word is the command's opcode. -/
def OpcodeField.Statement (i : Instr) : Prop := opField (encode i) = i.op

theorem OpcodeField.nop : OpcodeField.Statement .nop := opField_packWord _ _ _
theorem OpcodeField.crcHcs (l : Bool) : OpcodeField.Statement (.crcHcs l) := opField_packWord _ _ _
theorem OpcodeField.crcFcs (l : Bool) : OpcodeField.Statement (.crcFcs l) := opField_packWord _ _ _
theorem OpcodeField.berEnc (tl : Nat) : OpcodeField.Statement (.berEnc tl) := opField_packWord _ _ _
theorem OpcodeField.berDec (tl : Nat) (e p : Bool) : OpcodeField.Statement (.berDec tl e p) := opField_packWord _ _ _
theorem OpcodeField.axLenenc : OpcodeField.Statement .axLenenc := opField_packWord _ _ _
theorem OpcodeField.axLendec : OpcodeField.Statement .axLendec := opField_packWord _ _ _
theorem OpcodeField.axEnc (tag : Byte) : OpcodeField.Statement (.axEnc tag) := opField_packWord _ _ _
theorem OpcodeField.axDec (e : Bool) (tag : Byte) : OpcodeField.Statement (.axDec e tag) := opField_packWord _ _ _
theorem OpcodeField.axSkip : OpcodeField.Statement .axSkip := opField_packWord _ _ _
theorem OpcodeField.axOpt : OpcodeField.Statement .axOpt := opField_packWord _ _ _
theorem OpcodeField.axFixed (n : Nat) : OpcodeField.Statement (.axFixed n) := opField_packWord _ _ _
theorem OpcodeField.axVar (t : Bool) : OpcodeField.Statement (.axVar t) := opField_packWord _ _ _
theorem OpcodeField.axPeek : OpcodeField.Statement .axPeek := opField_packWord _ _ _
theorem OpcodeField.hAddrenc : OpcodeField.Statement .hAddrenc := opField_packWord _ _ _
theorem OpcodeField.hAddrdec (r : Role) : OpcodeField.Statement (.hAddrdec r) := opField_packWord _ _ _
theorem OpcodeField.hFmtenc : OpcodeField.Statement .hFmtenc := opField_packWord _ _ _
theorem OpcodeField.hFmtdec : OpcodeField.Statement .hFmtdec := opField_packWord _ _ _
theorem OpcodeField.hCtlenc : OpcodeField.Statement .hCtlenc := opField_packWord _ _ _
theorem OpcodeField.hCtldec : OpcodeField.Statement .hCtldec := opField_packWord _ _ _
theorem OpcodeField.hFrmenc : OpcodeField.Statement .hFrmenc := opField_packWord _ _ _
theorem OpcodeField.hFrmdec (dr sr : Role) : OpcodeField.Statement (.hFrmdec dr sr) := opField_packWord _ _ _

end Sys2Proof.Laws
end

