-- ==== Sys2Proof/Tests/Slice0.lean ====
section
/-! SUPPORT. The model's own tests: ill-formed commands, decoding, at most two one-step tests per command with values
of spec 95_test_vectors.md, and a witness for the hypotheses of every statement. -/

namespace Sys2Proof.Tests

open Sys2Proof.Machine

/-! ## Well-formedness: an ill-formed term for each check -/

theorem test_wf_berEnc_tl : (Instr.berEnc 8).wf = false ∧ (Instr.berEnc 7).wf = true := by decide
theorem test_wf_berDec_tl : (Instr.berDec 8 true false).wf = false ∧ (Instr.berDec 7 true false).wf = true := by
  decide
theorem test_wf_axFixed_n : (Instr.axFixed 65536).wf = false ∧ (Instr.axFixed 65535).wf = true := by decide

/-! ## Decoding: one word per command, its fields written out as R80 and R82 place them (IMM, FL, OP) -/

theorem test_decode_nop : decodeTableWord 32 0b0000000000000000_00000000_00000000 = some .nop := by decide
theorem test_decode_crcHcs :
    decodeTableWord 32 0b0000000000000000_00000001_00000001 = some (.crcHcs true) := by decide
theorem test_decode_crcFcs :
    decodeTableWord 32 0b0000000000000000_00000000_00000010 = some (.crcFcs false) := by decide
theorem test_decode_berEnc : decodeTableWord 32 0b0000000000000000_00000010_00010000 = some (.berEnc 2) := by decide
theorem test_decode_berDec :
    decodeTableWord 32 0b0000000000000000_00011001_00010001 = some (.berDec 1 true true) := by decide
theorem test_decode_axLenenc : decodeTableWord 32 0b0000000000000000_00000000_00100000 = some .axLenenc := by decide
theorem test_decode_axLendec : decodeTableWord 32 0b0000000000000000_00000000_00100001 = some .axLendec := by decide
theorem test_decode_axEnc : decodeTableWord 32 0b0000000000011001_00000000_00100010 = some (.axEnc 25) := by decide
theorem test_decode_axDec :
    decodeTableWord 32 0b0000000000001111_00000001_00100011 = some (.axDec true 15) := by decide
theorem test_decode_axSkip : decodeTableWord 32 0b0000000000000000_00000000_00100100 = some .axSkip := by decide
theorem test_decode_axOpt : decodeTableWord 32 0b0000000000000000_00000000_00100101 = some .axOpt := by decide
theorem test_decode_axFixed :
    decodeTableWord 32 0b1000000000000010_00000000_00100110 = some (.axFixed 32770) := by decide
theorem test_decode_axVar : decodeTableWord 32 0b0000000000000000_00000001_00100111 = some (.axVar true) := by decide
theorem test_decode_axPeek : decodeTableWord 32 0b0000000000000000_00000000_00101000 = some .axPeek := by decide
theorem test_decode_hAddrenc : decodeTableWord 32 0b0000000000000000_00000000_00110000 = some .hAddrenc := by decide
theorem test_decode_hAddrdec :
    decodeTableWord 32 0b0000000000000000_00000001_00110001 = some (.hAddrdec .server) := by decide
theorem test_decode_hFmtenc : decodeTableWord 32 0b0000000000000000_00000000_00110010 = some .hFmtenc := by decide
theorem test_decode_hFmtdec : decodeTableWord 32 0b0000000000000000_00000000_00110011 = some .hFmtdec := by decide
theorem test_decode_hCtlenc : decodeTableWord 32 0b0000000000000000_00000000_00110100 = some .hCtlenc := by decide
theorem test_decode_hCtldec : decodeTableWord 32 0b0000000000000000_00000000_00110101 = some .hCtldec := by decide
theorem test_decode_hFrmenc : decodeTableWord 32 0b0000000000000000_00000000_00110110 = some .hFrmenc := by decide
theorem test_decode_hFrmdec :
    decodeTableWord 32 0b0000000000000000_00000010_00110111 = some (.hFrmdec .client .server) := by decide

/-- R83: a reserved OP, a reserved FL bit and a reserved IMM bit, each rejected by its own name (vectors E5, CR11,
X52). -/
theorem test_decode_reserved :
    decodeWord 0x00000038 = .error (.reservedOp 0x38) ∧ decodeWord 0x00000201 = .error (.reservedFl 0x02) ∧
    decodeWord 0x01000022 = .error (.reservedImm 0x0100) := by decide

/-! ## One-step tests; the expected values are those of 95_test_vectors.md, named in each comment -/

/-- The reset state with these bytes at IBUF[0..n), IEND = n, and these arguments (95_test_vectors.md section 0). -/
def loaded (bytes : List Byte) (a0 a1 a2 : Word) : State :=
  { State.reset with
    ibuf := cellsAt 0 bytes, iend := BitVec.ofNat 32 bytes.length, arg0 := a0, arg1 := a1, arg2 := a2 }

/-- The state after one step that runs the word `w`. -/
def ran (w : Nat) (s : State) : State :=
  match step (s.withFetchWord 32 w) with
  | .next t => t
  | .fault _ => s
  | .refused _ => s


/-- STATUS, EDET0 and EDET1. -/
def status (t : State) : Word × Word × Word := (t.statusWord, t.edet0, t.edet1)

/-- The OBUF bytes emitted at OBUF[0..OCNT), RES0 to RES3 and ICNT. -/
def seen (t : State) : List Byte × List Word × Nat :=
  ((List.range t.ocnt.toNat).map t.obufByte, [t.res0, t.res1, t.res2, t.res3], t.icnt.toNat)

/-- Vector E1. -/
theorem test_nop :
    seen (ran 0x00000000 (loaded [] 0 0 0)) =
      ([], [0, 0, 0, 0], 0) := by decide

/-- Vector CR5. -/
theorem test_crcHcs :
    seen (ran 0x00000001 (loaded [0x00] 0 0 0)) =
      ([0x78, 0xF0], [0x78F0, 0, 0, 0], 1) := by decide

/-- Vector CR8. -/
theorem test_crcFcs_lsb :
    seen (ran 0x00000102 (loaded [0xA0, 0x07, 0x03, 0x21, 0x93] 0 0 0)) =
      ([0x01, 0x0F], [0x10F, 0, 0, 0], 5) := by decide +kernel

/-- Vector B5. -/
theorem test_berEnc :
    seen (ran 0x00000210 (loaded [0xAA] 0x5F1F 0 0)) =
      ([0x5F, 0x1F, 0x01, 0xAA], [0x1, 0, 0, 0], 1) := by decide

/-- Vector B6. -/
theorem test_berEnc_wide :
    status (ran 0x00000110 (loaded [0xAA] 0x1FF 0 0)) =
      (0x806, 0, 0x1FF) := by decide

/-- Vector B16. -/
theorem test_berDec_prefix :
    seen (ran 0x00001111 (loaded [0xA2, 0x03, 0x02, 0x01, 0x01, 0xA3] 0 0 0)) =
      ([0x02, 0x01, 0x01], [0xA2, 0x3, 0x1, 0], 5) := by decide

/-- Vector B17. -/
theorem test_berDec_strict :
    status (ran 0x00000111 (loaded [0xA2, 0x03, 0x02, 0x01, 0x01, 0xA3] 0 0 0)) =
      (0x306, 0x3, 0x4) := by decide

/-- Vector X5. -/
theorem test_axLenenc :
    seen (ran 0x00000020 (loaded [] 0x100 0 0)) =
      ([0x82, 0x01, 0x00], [0x3, 0, 0, 0], 0) := by decide

/-- Vector X15. -/
theorem test_axLendec :
    seen (ran 0x00000021 (loaded [0x81, 0x05] 0 0 0)) =
      ([], [0x5, 0x2, 0, 0], 2) := by decide

/-- Vector X27. -/
theorem test_axEnc_negative :
    seen (ran 0x000F0022 (loaded [] 0xFFFFFF80 0 0)) =
      ([0x0F, 0x80], [0xF, 0, 0, 0], 0) := by decide

/-- Vector X40. -/
theorem test_axEnc_octets :
    seen (ran 0x00090022 (loaded [0x01, 0x02, 0x03] 0x3 0 0)) =
      ([0x09, 0x03, 0x01, 0x02, 0x03], [0x9, 0, 0, 0], 3) := by decide

/-- Vector X60. -/
theorem test_axDec_int16 :
    seen (ran 0x00000023 (loaded [0x10, 0x80, 0x00] 0 0 0)) =
      ([], [0x10, 0xFFFF8000, 0, 0], 3) := by decide

/-- Vector X74. -/
theorem test_axDec_cut :
    status (ran 0x00000023 (loaded [0x09, 0x81, 0x05] 0 0 0)) =
      (0x106, 0x8, 0x3) := by decide

/-- Vector X95. -/
theorem test_axSkip :
    seen (ran 0x00000024 (loaded
      [0x02, 0x03, 0x12, 0x00, 0x03, 0x09, 0x06, 0x01, 0x00, 0x01, 0x08, 0x00, 0xFF, 0x0F, 0x02]
      0 0 0)) =
      ([], [0xF, 0x2, 0x4, 0], 15) := by decide

/-- Vector X92. -/
theorem test_axSkip_short :
    status (ran 0x00000024 (loaded [0x01, 0x04, 0x00, 0x00, 0x00] 0 0 0)) =
      (0x106, 0x6, 0x5) := by decide

/-- Vector X97. -/
theorem test_axOpt :
    seen (ran 0x00000025 (loaded [0x01, 0x11, 0x05] 0 0 0)) =
      ([], [0x1, 0, 0, 0], 1) := by decide

/-- Vector X98. -/
theorem test_axOpt_other :
    status (ran 0x00000025 (loaded [0x02] 0 0 0)) =
      (0x606, 0x2, 0) := by decide

/-- Vector X100. -/
theorem test_axFixed :
    seen (ran 0x00020026 (loaded [0x00, 0x03, 0x01] 0 0 0)) =
      ([0x00, 0x03], [0x2, 0, 0, 0], 2) := by decide

/-- Vector X103. -/
theorem test_axVar :
    seen (ran 0x00000027 (loaded [0x03, 0xAA, 0xBB, 0xCC, 0xDD] 0 0 0)) =
      ([0xAA, 0xBB, 0xCC], [0x3, 0, 0, 0], 4) := by decide

/-- Vector X104. -/
theorem test_axVar_term :
    seen (ran 0x00000127 (loaded [0x03, 0xAA, 0xBB, 0xCC, 0xDD] 0 0 0)) =
      ([0x03, 0xAA, 0xBB, 0xCC, 0xDD], [0x5, 0, 0, 0], 5) := by decide

/-- Vector X108. -/
theorem test_axPeek :
    seen (ran 0x00000028 (loaded [0xC4, 0x01] 0 0 0)) =
      ([], [0xC4, 0, 0, 0], 0) := by decide

/-- Vector H5. -/
theorem test_hAddrenc :
    seen (ran 0x00000030 (loaded [] 0x39101 0 0)) =
      ([0x00, 0x02, 0x00, 0x23], [0x4039101, 0, 0, 0], 0) := by decide

/-- Vector H8. -/
theorem test_hAddrenc_client :
    status (ran 0x00000030 (loaded [] 0x8501 0 0)) =
      (0x806, 0, 0x8501) := by decide

/-- Vector H15. -/
theorem test_hAddrdec :
    seen (ran 0x00000131 (loaded [0x02, 0x23] 0 0 0)) =
      ([], [0x2019101, 0, 0, 0], 2) := by decide

/-- Vector H21. -/
theorem test_hAddrdec_upper :
    status (ran 0x00000131 (loaded [0x02, 0x04, 0x06, 0x01] 0 0 0)) =
      (0xD06, 0x4, 0x1) := by decide

/-- Vector H27. -/
theorem test_hFmtenc :
    seen (ran 0x00000032 (loaded [] 0x819 0 0)) =
      ([0xA8, 0x19], [0xA819, 0, 0, 0], 0) := by decide

/-- Vector H31. -/
theorem test_hFmtdec :
    seen (ran 0x00000033 (loaded [0xA8, 0x19] 0 0 0)) =
      ([], [0x19, 0x1, 0, 0], 2) := by decide

/-- Vector H32. -/
theorem test_hFmtdec_type :
    status (ran 0x00000033 (loaded [0xB0, 0x07] 0 0 0)) =
      (0xE06, 0xB007, 0) := by decide

/-- Vector H42. -/
theorem test_hCtlenc :
    seen (ran 0x00000034 (loaded [] 0x1774 0 0)) =
      ([0xFE], [0xFE, 0, 0, 0], 0) := by decide

/-- Vector H47. -/
theorem test_hCtlenc_ns :
    status (ran 0x00000034 (loaded [] 0x13 0 0)) =
      (0x806, 0, 0x13) := by decide

/-- Vector H55. -/
theorem test_hCtldec :
    seen (ran 0x00000035 (loaded [0x71] 0 0 0)) =
      ([], [0x1303, 0, 0, 0], 1) := by decide

/-- Vector H58 ff.. -/
theorem test_hCtldec_other :
    status (ran 0x00000035 (loaded [0x87] 0 0 0)) =
      (0x606, 0x87, 0) := by decide

/-- Vector F7. -/
theorem test_hFrmenc :
    seen (ran 0x00000036 (loaded [0xAA] 0x10001 0x10 0x7114)) =
      ([0x7E, 0xA8, 0x0D, 0x03, 0x21, 0x32, 0x02, 0x33, 0xE7, 0xE7, 0x00, 0xAA, 0xD0, 0x9B, 0x7E], [0xD, 0x1, 0, 0],
        1) := by decide +kernel

/-- Vector F11. -/
theorem test_hFrmenc_info :
    status (ran 0x00000036 (loaded [0x01] 0x10001 0x10 0x1002)) =
      (0x806, 0x2, 0x1002) := by decide

/-- Vector F12. -/
theorem test_hFrmdec :
    seen (ran 0x00000137 (loaded
      [0x7E, 0xA0, 0x0D, 0x03, 0x21, 0x10, 0x32, 0x6B, 0xE7, 0xE7, 0x00, 0x01, 0x09, 0x80, 0x7E]
      0 0 0)) =
      ([0x01], [0x1010001, 0x1000010, 0x21004, 0x1000D], 15) := by decide +kernel

/-- Vector F22. -/
theorem test_hFrmdec_fcs :
    status (ran 0x00000137 (loaded [0x7E, 0xA0, 0x07, 0x03, 0x21, 0x92, 0x0F, 0x01, 0x7E] 0 0 0)) =
      (0x406, 0x18610, 0xF01) := by decide +kernel

/-- The reset state with these inputs to come. -/
def idleWith (ins : List Input) : State := { State.reset with inputs := ins }

/-- The reset state with the word `w` in flight (R37) and these inputs to come. -/
def busyWith (w : Word) (ins : List Input) : State := { State.reset with pending := some w, cmd := w, inputs := ins }

/-- The state after one step. -/
def after (s : State) : State :=
  match step s with
  | .next t => t
  | .fault _ => s
  | .refused _ => s

/-- Vectors E7 and E8: the word is checked before the cursors, IEND before ICUR. -/
theorem test_check_order :
    status (ran 0x00000201 { State.reset with ocur := 4097 }) = (0xC06, 0x201, 0) ∧
    status (ran 0x00000001 { State.reset with iend := 4097, icur := 5000 }) = (0xB06, 1, 0x1001) := by decide

/-- Vectors E11 and E2: OCUR = 4095 leaves no room for three bytes; a full OBUF has room for none. -/
theorem test_room :
    status (ran 0x00120022 { State.reset with ocur := 4095, arg0 := 3 }) = (0x906, 3, 1) ∧
    status (ran 0x00000000 { State.reset with ocur := 4096 }) = (0x002, 0, 0) := by decide

/-- Vector E12: IRQ after a completion with IE = 1, and none after the host clears DONE. -/
theorem test_irq :
    (ran 0x00000000 { State.reset with ie := true }).irq = true ∧
    (after { idleWith [.host (.write .w32 0x008 0x2)] with ie := true, done := true }).irq = false := by decide

/-- Vector E13: a write to ARG0 while busy is dropped and sets OVR. -/
theorem test_busy_write :
    (after (busyWith 0 [.host (.write .w32 0x024 7)])).arg0 = 0 ∧
    (after (busyWith 0 [.host (.write .w32 0x024 7)])).statusWord = 0x9 := by decide

/-- Vector E14: a soft reset while busy discards the command. -/
theorem test_soft_reset : after (busyWith 0x00000036 [.host (.write .w32 0x004 0x2)]) = State.reset := by decide

/-- Vector E15: STATUS = 0x306, write 0x6, STATUS = 0x300. -/
theorem test_status_write :
    (after { idleWith [.host (.write .w32 0x008 0x6)] with done := true, err := true, ecode := 3 }).statusWord
      = 0x300 := by decide

/-- R64's lanes: a 32-bit write puts bits 7:0 at the lowest address, and a 16-bit read at the next even address returns
the upper two of them. -/
theorem test_lanes :
    (after (idleWith [.host (.write .w32 0x1004 0x44332211)])).ibuf
      = [(4, 0x11), (5, 0x22), (6, 0x33), (7, 0x44)] ∧
    (after { loaded [0x11, 0x22, 0x33, 0x44] 0 0 0 with inputs := [.host (.read .w16 0x1002)] }).reads
      = [0x4433] := by decide

/-! ## Witnesses: each shows that the hypotheses of the statement it names can be met together -/

theorem loaded_legal (bs : List Byte) (a b c : Word) (h : bs.length ≤ 4096) : LegalCursors (loaded bs a b c) := by
  have h32 : (BitVec.ofNat 32 bs.length).toNat = bs.length := by simp; omega
  exact ⟨by show (BitVec.ofNat 32 bs.length).toNat ≤ 4096; omega, Nat.zero_le _, Nat.zero_le _⟩

theorem loaded_input (bs : List Byte) (a b c : Word) (h : bs.length ≤ 4096) : (loaded bs a b c).input = bs := by
  have h32 : (loaded bs a b c).avail = bs.length := by
    show (BitVec.ofNat 32 bs.length).toNat - 0 = bs.length
    simp; omega
  apply List.ext_getElem
  · simp [h32]
  · intro k h1 h2
    simp [State.input, State.ibufByte, loaded, lookup_cellsAt, State.reset, h2]

/-! ### Encoding and the step -/

theorem witness_DecodeOfEncode :
    (Instr.berDec 7 true true).wf = true ∧ (Instr.axFixed 65535).wf = true ∧
      (Instr.hFrmdec .server .client).wf = true := by
  decide

theorem witness_EncodeOfDecode : decodeWord 0xFFFF0026 = .ok (.axFixed 65535) := by decide

theorem witness_LegalWordsAreTheTableRows :
    (∃ r ∈ commandTable, 0x00001F11#32 &&& r.2 = r.1) ∧
    (∀ r ∈ commandTable, 0x00002011#32 &&& r.2 ≠ r.1) ∧ (busyWith 0x00002011 []).pending = some 0x00002011 := by
  refine ⟨⟨(0x00000011, 0xFFFFE0FF), by simp [commandTable], by decide⟩, ?_, rfl⟩
  intro r hr
  simp only [commandTable, List.mem_cons, List.not_mem_nil, or_false] at hr
  rcases hr with rfl | rfl | rfl | rfl | rfl | rfl | rfl | rfl | rfl | rfl | rfl | rfl | rfl | rfl | rfl | rfl | rfl | rfl
    | rfl | rfl | rfl | rfl <;> decide

theorem witness_StepRunsDecodedCommand :
    decodeWord 0x00000111 = .ok (.berDec 1 false false) ∧
    ((busyWith 0x00000111 []).pending = some 0x00000111 ∧ (busyWith 0x00000111 []).inputs = []) ∧
    (busyWith 0x00000111 [.engine, .powerOn]).pending = some 0x00000111 ∧
    (busyWith 0x00000111 [.engine, .powerOn]).inputs = .engine :: [.powerOn] := by decide

/-- A command in flight over a listed buffer byte, after an error that the host has cleared. -/
theorem witness_StepKeepsInv :
    Inv { busyWith 0x00000001 [] with ibuf := [(0, 0x31)], iend := 1, obuf := [(4095, 0xFF)], edet0 := 1 } ∧
    ∃ t, step { busyWith 0x00000001 [] with ibuf := [(0, 0x31)], iend := 1, obuf := [(4095, 0xFF)], edet0 := 1 }
      = .next t := by
  refine ⟨⟨rfl, by simp [Memory.wf], by simp [Memory.wf], ?_, ?_, Nat.zero_le _, ?_, fun _ => ⟨rfl, rfl, rfl⟩, ?_,
    ?_, ?_⟩,
    ⟨_, rfl⟩⟩
  · intro x hx
    simp at hx
    subst hx
    decide
  · intro x hx
    simp at hx
    subst hx
    decide
  · intro h
    cases h
  · intro w h
    exact Option.some.inj h
  · intro h
    exact absurd rfl h
  · intro h
    cases h

theorem witness_BusyCommandIsUndisturbed :
    (busyWith 0x00000001 [.host (.write .w32 0x00C 0)]).pending = some 0x00000001 ∧
    ∃ t, step (busyWith 0x00000001 [.host (.write .w32 0x00C 0)]) = .next t ∧ t.busy = true := ⟨rfl, _, rfl, rfl⟩

theorem witness_BusyEndsWithinInputs : (busyWith 0x00000001 [.host (.read .w8 0x1000)]).busy = true := by decide

theorem witness_PreChecksComeFirst :
    State.reset.params.ibufSize < ({ State.reset with iend := 4097 } : State).iend.toNat ∧
    (4096 ≤ State.reset.params.ibufSize ∧ ({ State.reset with iend := 4096 } : State).iend.toNat = 4096 ∧
      4096 < ({ State.reset with icur := 4097 } : State).icur.toNat) ∧
    (LegalCursors State.reset ∧ State.reset.params.obufSize < ({ State.reset with ocur := 4097 } : State).ocur.toNat) ∧
    LegalCursors { State.reset with icur := 4096, iend := 4096, ocur := 4096 } := by decide

/-- A command that emits two bytes at OCUR = 4094, and the last offset below them. -/
theorem witness_EveryCommandCommitsOrFails :
    State.reset.params.legal = true ∧ ∃ t, exec (.crcHcs false) { State.reset with ocur := 4094 } = .next t ∧
      t.ocnt = 2 ∧ 4093 < ({ State.reset with ocur := 4094 } : State).ocur.toNat ∧
      ({ State.reset with ocur := 4094 } : State).ocur.toNat + t.ocnt.toNat ≤ 4096 :=
  ⟨rfl, _, rfl, rfl, by decide, by decide⟩

/-- The witness changes a byte at IEND, outside the input region. -/
theorem witness_CommandSeesOnlyItsInputRegion :
    (loaded [0x31] 0 0 0).params.legal = true ∧
    State.input { loaded [0x31] 0 0 0 with ibuf := [(0, 0x31), (1, 0xAA)] } = (loaded [0x31] 0 0 0).input ∧
    ∃ t, exec .axPeek (loaded [0x31] 0 0 0) = .next t := ⟨rfl, by decide, _, rfl⟩

theorem witness_CursorsAdvanceWithoutWrapping :
    (loaded [0x31] 0 0 0).params.legal = true ∧ LegalCursors (loaded [0x31] 0 0 0) ∧
    ∃ t, exec .axOpt (loaded [0x31] 0 0 0) = .next t := ⟨rfl, loaded_legal _ _ _ _ (by decide), _, rfl⟩

/-! ### Reset and the host's accesses -/

theorem witness_ResetLeavesResetValues :
    (busyWith 0 [.powerOn]).inputs = .powerOn :: [] ∧
    (busyWith 0 [.host (.write .w32 0x004 0xFFFFFFFF)]).inputs = .host (.write .w32 0x004 0xFFFFFFFF) :: [] ∧
    (0xFFFFFFFF : Word).getLsbD 1 = true := by decide

theorem witness_CmdWriteIsAcceptedWhenIdle :
    (idleWith [.host (.write .w32 0x00C 0x36)]).busy = false ∧
    (idleWith [.host (.write .w32 0x00C 0x36)]).inputs = .host (.write .w32 0x00C 0x36) :: [] := by decide

/-- One offset and width per clause, at an end of its range; and a 32-bit write at the last byte of buffers of 2049
bytes (log entry 11). -/
theorem witness_BusyWritesAreDropped :
    (∀ i, (busyWith 0 i).params.legal = true ∧ (busyWith 0 i).busy = true) ∧
    ((0x02C : Offset).toNat ∈ [0x00C, 0x010, 0x014, 0x018, 0x024, 0x028, 0x02C]) ∧
    ((0x004 : Offset).toNat = 0x004 ∧ (0xFFFFFFFD : Word).getLsbD 1 = false) ∧
    ((0x1FFC : Offset).toNat % Width.w32.bytes = 0 ∧ 0x1000 ≤ (0x1FFC : Offset).toNat ∧
      (0x1FFF : Offset).toNat % Width.w8.bytes = 0 ∧
      (0x1FFF : Offset).toNat < 0x1000 + State.reset.params.ibufSize) ∧
    ((0x2000 : Offset).toNat % Width.w32.bytes = 0 ∧ 0x2000 ≤ (0x2000 : Offset).toNat ∧
      (0x2FFE : Offset).toNat % Width.w16.bytes = 0 ∧
      (0x2FFE : Offset).toNat < 0x2000 + State.reset.params.obufSize) ∧
    (({ Params.default with ibufSize := 2049, obufSize := 2049 } : Params).legal = true ∧
      (0x1800 : Offset).toNat % Width.w32.bytes = 0 ∧ (0x1800 : Offset).toNat < 0x1000 + 2049 ∧
      (0x2800 : Offset).toNat % Width.w32.bytes = 0 ∧ (0x2800 : Offset).toNat < 0x2000 + 2049) ∧
    (0x008 : Offset).toNat = 0x008 ∧
    (0x00000002 : Word).getLsbD 1 = true ∧
    (0x044 : Offset).toNat ∈ [0x000, 0x01C, 0x020, 0x030, 0x034, 0x038, 0x03C, 0x040, 0x044] :=
  ⟨fun _ => ⟨rfl, rfl⟩, by decide⟩

theorem witness_BusyReadsAreUnspecified :
    (∀ i, (busyWith 0 i).params.legal = true ∧ (busyWith 0 i).busy = true) ∧
    ((0x00C : Offset).toNat ∈ [0x000, 0x004, 0x008, 0x00C]) ∧
    ((0x010 : Offset).toNat % 4 = 0 ∧ 0x010 ≤ (0x010 : Offset).toNat ∧ (0x044 : Offset).toNat % 4 = 0 ∧
      (0x044 : Offset).toNat ≤ 0x044) ∧
    ((0x1FFC : Offset).toNat % Width.w32.bytes = 0 ∧ 0x1000 ≤ (0x1FFC : Offset).toNat ∧
      (0x1FFC : Offset).toNat + Width.w32.bytes ≤ 0x1000 + State.reset.params.ibufSize) ∧
    (0x2FFF : Offset).toNat % Width.w8.bytes = 0 ∧ 0x2000 ≤ (0x2FFF : Offset).toNat ∧
      (0x2FFF : Offset).toNat + Width.w8.bytes ≤ 0x2000 + State.reset.params.obufSize :=
  ⟨fun _ => ⟨rfl, rfl⟩, by decide⟩

theorem witness_RegisterReadsWhenIdle :
    (∀ i, (idleWith i).busy = false) ∧ (0xFFF : Offset).toNat < 0x1000 := ⟨fun _ => rfl, by decide⟩

theorem witness_RegisterWritesWhenIdle :
    (∀ i, (idleWith i).busy = false) ∧ (0x010 : Offset).toNat = 0x010 ∧ (0x014 : Offset).toNat = 0x014 ∧
    (0x018 : Offset).toNat = 0x018 ∧ (0x024 : Offset).toNat = 0x024 ∧ (0x028 : Offset).toNat = 0x028 ∧
    (0x02C : Offset).toNat = 0x02C ∧ ((0x004 : Offset).toNat = 0x004 ∧ (0xFF01 : Word).getLsbD 1 = false) ∧
    (0x048 : Offset).toNat ∉ [0x004, 0x008, 0x00C, 0x010, 0x014, 0x018, 0x024, 0x028, 0x02C] :=
  ⟨fun _ => rfl, by decide⟩

theorem witness_StatusWriteOneToClear :
    (busyWith 0 [.host (.write .w32 0x008 0xE)]).inputs = .host (.write .w32 0x008 0xE) :: [] := by decide

/-- One access per disjunct: a narrow and a misaligned register access, the first and last unlisted word, the first and last address past each buffer of
a block with the smallest sizes, and the reserved region. -/
theorem witness_IgnoredAccessesDoNothing :
    ({ Params.default with ibufSize := 2049, obufSize := 2049 } : Params).legal = true ∧
    ((0x00C : Offset).toNat < 0x1000 ∧ Width.w8 ≠ .w32) ∧ ((0x00E : Offset).toNat < 0x1000 ∧
      (0x00E : Offset).toNat % 4 ≠ 0) ∧
    (0x048 ≤ (0x048 : Offset).toNat ∧ (0xFFC : Offset).toNat < 0x1000) ∧
    (0x1000 + 2049 ≤ (0x1801 : Offset).toNat ∧ (0x1FFF : Offset).toNat < 0x2000) ∧
    (0x2000 + 2049 ≤ (0x2801 : Offset).toNat ∧ (0x2FFF : Offset).toNat < 0x3000) ∧
      0x3000 ≤ (0x3000 : Offset).toNat := by
  decide

theorem witness_BufferAccessLanes :
    (∀ i, (idleWith i).params.legal = true ∧ (idleWith i).busy = false) ∧
    (0x1000 ≤ (0x1FFC : Offset).toNat ∧ (0x1FFC : Offset).toNat < 0x1000 + State.reset.params.ibufSize ∧
      (0x1FFC : Offset).toNat % Width.w32.bytes = 0) ∧
    (0x2000 ≤ (0x2FFF : Offset).toNat ∧ (0x2FFF : Offset).toNat < 0x2000 + State.reset.params.obufSize ∧
      (0x2FFF : Offset).toNat % Width.w16.bytes ≠ 0) := ⟨fun _ => ⟨rfl, rfl⟩, by decide⟩

theorem witness_BusReadsHaveNoSideEffects :
    (busyWith 0 [.host (.read .w32 0x030)]).inputs = .host (.read .w32 0x030) :: [] := by decide

theorem witness_IrqFollowsEnableAndDone :
    ((busyWith 0x00000099 []).busy = true ∧ ∃ t, engineTurn (busyWith 0x00000099 []) = .next t) ∧
    (∃ t, step (busyWith 0x00000099 [.powerOn]) = .next t) ∧
    ((idleWith [.host (.write .w32 0x004 1)]).busy = false ∧ (1 : Word).getLsbD 1 = false ∧
      ∃ t, step (idleWith [.host (.write .w32 0x004 1)]) = .next t) ∧
    ((2 : Word).getLsbD 1 = true ∧ (∃ t, step (busyWith 0 [.host (.write .w32 0x008 2)]) = .next t) ∧
      ∃ t, step (busyWith 0 [.host (.write .w32 0x004 2)]) = .next t) ∧
    (idleWith [.host (.write .w32 0x00C 1)]).busy = false ∧
      ∃ t, step (idleWith [.host (.write .w32 0x00C 1)]) = .next t :=
  ⟨⟨rfl, _, rfl⟩, ⟨_, rfl⟩, ⟨rfl, rfl, _, rfl⟩, ⟨rfl, ⟨_, rfl⟩, _, rfl⟩, rfl, _, rfl⟩

theorem witness_WindowAnswersItsAddresses :
    0x4000C000 % 0x4000 = 0 ∧ (0x3FFF < 0x4000 ∧ 0x4000FFFF = 0x4000C000 + 0x3FFF) ∧ 0x4000BFFF < 0x4000C000 ∧
    0x4000C000 + 0x4000 ≤ 0x40010000 := by decide

theorem witness_OvrIsSetOnlyByDroppedWrites :
    ∃ t, step (busyWith 0 [.host (.write .w32 0x00C 0)]) = .next t ∧
      (busyWith 0 [.host (.write .w32 0x00C 0)]).ovr = false ∧ t.ovr = true := ⟨_, rfl, rfl, rfl⟩

/-! ### NOP, CRC and BER -/

theorem witness_NopOnlyCompletes : LegalCursors { State.reset with icur := 1, iend := 2, ocur := 4096 } := by decide

theorem witness_CrcCommandsGiveTheCrc : LegalCursors (loaded [0x31, 0x32] 0 0 0) ∧
  (loaded [0x31, 0x32] 0 0 0).avail = 2 := by
  decide

theorem witness_CrcDetectsEveryFlippedBit : 7 < 8 ∧ 1 < [0x31#8, 0x32#8].length ∧ 1 < 2 := by decide

theorem witness_BerEncWrapsTheInput :
    ((0 < 1 ∨ 4 < 0) ∧ (5 < 1 ∨ 4 < 5) ∧ 7 < 8) ∧ 2 ^ (8 * 3) ≤ (loaded [] 0x1000000 0 0).arg0.toNat ∧
    ((loaded [] 0xFFFFFF 0 0).arg0.toNat < 2 ^ (8 * 3) ∧ (loaded [] 0xFFFFFF 0 0).input = []) ∧
    (LegalCursors { loaded [] 0x5F1F 0 0 with iend := 255 } ∧
      State.input { loaded [] 0x5F1F 0 0 with iend := 255 } ≠ [] ∧
      (State.input { loaded [] 0x5F1F 0 0 with iend := 255 }).length = 255 ∧ fromBE [0x5F, 0x1F] = 0x5F1F) ∧
    LegalCursors { loaded [] 0x5F1F 0 0 with iend := 256 } ∧
      255 < (State.input { loaded [] 0x5F1F 0 0 with iend := 256 }).length := by
  refine ⟨by decide, by decide, by decide, ⟨by decide, ?_, ?_, by decide⟩, by decide, ?_⟩
  · intro h
    have := congrArg List.length h
    rw [input_length] at this
    exact absurd this (by decide)
  · rw [input_length]; rfl
  · rw [input_length]; decide

theorem witness_BerDecReadsAnElement :
    LegalCursors (loaded [0x5F, 0x1F, 0x01, 0xAA, 0xBB] 0x5F1F 0 0) ∧
    (loaded [0x5F, 0x1F, 0x01, 0xAA, 0xBB] 0x5F1F 0 0).input = [0x5F, 0x1F] ++ [BitVec.ofNat 8 1] ++ [0xAA] ++ [0xBB] ∧
    (loaded [0x5F, 0x1F, 0x01, 0xAA, 0xBB] 0x5F1F 0 0).arg0.toNat = fromBE [0x5F, 0x1F] := by decide

/-- One state per clause, in the clauses' order: the width of the expected tag, missing bytes, the wrong tag, and the
length that does not fit in strict and in prefix mode. -/
theorem witness_BerDecErrors :
    ((0 < 1 ∨ 4 < 0) ∧ (5 < 1 ∨ 4 < 5) ∧ 7 < 8) ∧ 2 ^ (8 * 1) ≤ (loaded [] 0x100 0 0).arg0.toNat ∧
    ((loaded [0xA2] 0xFF 0 0).arg0.toNat < 2 ^ (8 * 1) ∧ (loaded [0xA2] 0xFF 0 0).input.length < 1 + 1) ∧
    ((loaded [0xA2, 0x03, 0x02] 0xA2 0 0).input = [0xA2] ++ [0x03] ++ [0x02] ∧ fromBE [0xA2] ≠ 0xA3 ∧
      fromBE [0xA2] = (loaded [0xA2, 0x03, 0x02] 0xA2 0 0).arg0.toNat ∧
      [0x02#8].length ≠ (0x03#8).toNat ∧ [0x02#8].length < (0x03#8).toNat) := by decide

theorem witness_BerRoundTrip : (0xFFFFFFFF : Word).toNat < 2 ^ (8 * 4) ∧ 1 ≤ [0xAA#8].length ∧
  [0xAA#8].length ≤ 255 := by
  decide

/-! ### A-XDR -/

theorem witness_AxLenencWritesTheMinimalPrefix : LegalCursors (loaded [] 0xFFFFFFFF 0 0) := by decide

theorem prefix_short (v : Nat) (h : v < 128) : LenPrefix [BitVec.ofNat 8 v] v := .short v h

theorem prefix_five : LenPrefix [0x81, 0x05] 5 := .long [0x05] (by decide) (by decide)

theorem prefix_longest : LenPrefix [0x84, 0xFF, 0xFF, 0xFF, 0xFF] 0xFFFFFFFF :=
  .long [0xFF, 0xFF, 0xFF, 0xFF] (by decide) (by decide)

theorem witness_AxLendecReadsAPrefix :
    LegalCursors (loaded [0x81, 0x05, 0x00] 0 0 0) ∧
    (LenPrefix [0x81, 0x05] 5 ∧ (loaded [0x81, 0x05, 0x00] 0 0 0).input = [0x81, 0x05] ++ [0x00]) ∧
    (LenPrefix [0x7F] 0x7F ∧ LenPrefix [0x84, 0xFF, 0xFF, 0xFF, 0xFF] 0xFFFFFFFF) ∧
    (loaded [] 0 0 0).input = [] ∧ (loaded [0x80] 0 0 0).input = 0x80 :: [] ∧
    ((loaded [0xFF] 0 0 0).input = BitVec.ofNat 8 (0x80 + 127) :: [] ∧
      (loaded [0x85] 0 0 0).input = BitVec.ofNat 8 (0x80 + 5) :: []) ∧
    (loaded [0x84, 1, 2, 3] 0 0 0).input = BitVec.ofNat 8 (0x80 + 4) :: [1, 2, 3] ∧ [1#8, 2#8, 3#8].length < 4 :=
  ⟨by decide, ⟨prefix_five, by decide⟩, ⟨prefix_short _ (by decide), prefix_longest⟩, by decide⟩

/-- The ends of the ranges of the scalar tags, and the first values outside them. -/
theorem witness_AxEncScalars :
    LegalCursors (loaded [] 0 0 0) ∧ ((2 : Word) ≠ 0 ∧ (2 : Word) ≠ 1) ∧
    (-128 ≤ (0xFFFFFF80 : Word).toInt ∧ (0x7F : Word).toInt ≤ 127 ∧ (0xFFFFFF7F : Word).toInt < -128 ∧
      127 < (0x80 : Word).toInt) ∧
    (-32768 ≤ (0xFFFF8000 : Word).toInt ∧ (0x7FFF : Word).toInt ≤ 32767 ∧ (0xFFFF7FFF : Word).toInt < -32768 ∧
      32767 < (0x8000 : Word).toInt) ∧
    (255 ≤ (0xFF : Word).toNat ∧ 255 < (0x100 : Word).toNat ∧ 65535 ≤ (0xFFFF : Word).toNat ∧
      65535 < (0x10000 : Word).toNat) := by decide

theorem witness_AxEncBytesAndHeaders :
    LegalCursors (loaded [1, 2, 3] 3 0 0) ∧
      (loaded [1, 2, 3] 3 0 0).arg0.toNat ≤ (loaded [1, 2, 3] 3 0 0).input.length ∧
    (loaded [1, 2, 3] 4 0 0).input.length < (loaded [1, 2, 3] 4 0 0).arg0.toNat ∧
    (12 ≤ (loaded (List.replicate 12 0xFF) 0 0 0).input.length ∧
      (loaded (List.replicate 11 0xFF) 0 0 0).input.length < 12) ∧
    (4 : Byte).toNat ∉ [0, 1, 2, 3, 5, 6, 9, 10, 15, 16, 17, 18, 25] := by decide

theorem item_octets : ItemBytes [9, 2, 0xAA, 0xBB] 9 2 [0xAA, 0xBB] 0 false :=
  .octets [2] [0xAA, 0xBB] (prefix_short 2 (by decide))

theorem witness_AxDecReadsAnItem :
    LegalCursors (loaded [9, 2, 0xAA, 0xBB, 0xFF] 0 0 0) ∧ ItemBytes [9, 2, 0xAA, 0xBB] 9 2 [0xAA, 0xBB] 0 false ∧
    (loaded [9, 2, 0xAA, 0xBB, 0xFF] 0 0 0).input = [9, 2, 0xAA, 0xBB] ++ [0xFF] := ⟨by decide, item_octets, by decide⟩

theorem witness_AxDecErrors :
    ((loaded [] 0 0 0).input = [] ∧ LegalCursors (loaded [] 0 0 0)) ∧
    ((loaded [0x0F, 1] 0 0 0).input = 0x0F :: [1] ∧ (0x0F : Byte) ≠ 0x10) ∧
    ((loaded [4] 0 0 0).input = 4 :: [] ∧ (4 : Byte).toNat ∉ [0, 1, 2, 3, 5, 6, 9, 10, 15, 16, 17, 18, 25]) ∧
    ((25, 13) ∈ [(3, 2), (15, 2), (17, 2), (16, 3), (18, 3), (5, 5), (6, 5), (25, 13)] ∧ (25 : Byte).toNat = 25 ∧
      (loaded (25 :: List.replicate 11 0) 0 0 0).input.length < 13) ∧
    ((loaded [9, 3, 0xAA, 0xBB] 0 0 0).input = 9 :: ([BitVec.ofNat 8 3] ++ [0xAA, 0xBB]) ∧
      LenPrefix [BitVec.ofNat 8 3] 3 ∧ [0xAA#8, 0xBB#8].length < 3) ∧
    ((loaded [1] 0 0 0).input = 1 :: [] ∧ (loaded [2, 0x80] 0 0 0).input = 2 :: (0x80 :: []) ∧
      (loaded [10, 0xFF] 0 0 0).input = 10 :: (BitVec.ofNat 8 (0x80 + 127) :: []) ∧
      (loaded [1, 0x82, 1] 0 0 0).input = 1 :: (BitVec.ofNat 8 (0x80 + 2) :: [1]) ∧ [1#8].length < 2) :=
  ⟨by decide, by decide, by decide, by decide, ⟨by decide, prefix_short 3 (by decide), by decide⟩, by decide⟩

theorem witness_AxItemRoundTrip :
    axEncRule 9 2 [0xAA, 0xBB, 0xCC] = .ok { out := [9, 2, 0xAA, 0xBB], consumed := 2, r0 := 9 } := by decide

/-- X85's tree: an array of two uint8 items. -/
theorem tree_two : TreeBytes [1, 2, 0x11, 1, 0x11, 2] 2 3 :=
  .node [1, 2] [0x11, 1, 0x11, 2] 1 2 1 2 (.array [2] 2 (prefix_short 2 (by decide)))
    (.cons 1 [0x11, 1] [0x11, 2] 1 1 1 1 (.leaf _ _ _ _ _ (.uint8 1))
      (.cons 0 [0x11, 2] [] 1 0 1 0 (.leaf _ _ _ _ _ (.uint8 2)) .nil))

theorem witness_AxSkipWalksATree :
    LegalCursors { loaded [1, 2, 0x11, 1, 0x11, 2, 0xFF] 0 0 0 with maxdepth := 2 } ∧
    TreeBytes [1, 2, 0x11, 1, 0x11, 2] 2 3 ∧
    State.input { loaded [1, 2, 0x11, 1, 0x11, 2, 0xFF] 0 0 0 with maxdepth := 2 }
      = [1, 2, 0x11, 1, 0x11, 2] ++ [0xFF] ∧ 2 ≤ (2 : Byte).toNat := ⟨by decide, tree_two, by decide, by decide⟩

/-- Vector X91: the second element is absent. -/
theorem walk_absent : WalkFault 32 [1, 2, 0x11, 1] 0 1 1 5 4 :=
  .inside [1, 2] [0x11, 1] [] 1 2 1 1 1 0 1 1 5 4 (by decide) (.array [2] 2 (prefix_short 2 (by decide))) (by decide)
    (.cons 0 [0x11, 1] [] 1 0 1 0 (.leaf _ _ _ _ _ (.uint8 1)) .nil) (by decide)
    (.here _ _ _ _ _ _ (by decide) .absent)

/-- Vector X86: an item at depth 3 with MAXDEPTH = 2. -/
theorem walk_deep : WalkFault 2 [1, 1, 1, 1, 0] 0 1 10 3 2 :=
  .inside [1, 1] [] [1, 1, 0] 1 1 0 0 0 0 1 10 3 2 (by decide) (.array [1] 1 (prefix_short 1 (by decide))) (by decide)
    .nil (by decide)
    (.inside [1, 1] [] [0] 1 1 0 0 0 2 2 10 3 2 (by decide) (.array [1] 1 (prefix_short 1 (by decide))) (by decide)
      .nil (by decide) (.deep _ _ _ (by decide)))

/-- Each failing item as the only element of an array: unknown, cut, with a missing, malformed, too long or cut length,
and with a cut body. -/
theorem walk_faults :
    WalkFault 2 [1, 1, 4] 0 1 6 4 0 ∧ WalkFault 2 [1, 1, 0x10, 0xFF] 0 1 1 5 4 ∧ WalkFault 2 [1, 1, 9] 0 1 1 4 3 ∧
    WalkFault 2 [1, 1, 9, 0x80] 0 1 14 0x80 0 ∧ WalkFault 2 [1, 1, 9, 0xFD] 0 1 7 0x7D 4 ∧
    WalkFault 2 [1, 1, 9, 0x82, 1] 0 1 1 6 5 ∧ WalkFault 2 [1, 1, 9, 3, 0xAA, 0xBB] 0 1 1 7 6 := by
  have inArray : ∀ (x : List Byte) (code : Byte) (d0 d1 : Nat), ItemFault 2 x code d0 d1 →
      WalkFault 2 ([1, 1] ++ [] ++ x) 0 1 code d0 d1 := fun x code d0 d1 h =>
    .inside [1, 1] [] x 1 1 0 0 0 0 1 code d0 d1 (by decide) (.array [1] 1 (prefix_short 1 (by decide))) (by decide)
      .nil (by decide) (.here _ _ _ _ _ _ (by decide) h)
  exact ⟨inArray _ _ _ _ (.unknown 4 [] (by decide)), inArray _ _ _ _ (.fixedCut 0x10 [0xFF] 3 (by decide) (by decide)),
    inArray _ _ _ _ (.lengthAbsent 9 (by decide)), inArray _ _ _ _ (.lengthMalformed 9 [] (by decide)),
    inArray _ _ _ _ (.lengthTooLong 9 0x7D [] (by decide) (by decide) (by decide)),
    inArray _ _ _ _ (.lengthCut 9 2 [1] (by decide) (by decide) (by decide) (by decide)),
    inArray _ _ _ _ (.bodyCut 9 [3] [0xAA, 0xBB] 3 (by decide) (prefix_short 3 (by decide)) (by decide))⟩

theorem witness_AxSkipGuardsDepthAndInput :
    (LegalCursors (loaded [1, 2, 0x11, 1] 0 0 0) ∧
      WalkFault (loaded [1, 2, 0x11, 1] 0 0 0).maxdepth.toNat (loaded [1, 2, 0x11, 1] 0 0 0).input 0 1 1 5 4) ∧
    (TreeBytes [1, 2, 0x11, 1, 0x11, 2] 2 3 ∧
      State.input { loaded [1, 2, 0x11, 1, 0x11, 2] 0 0 0 with maxdepth := 1 } = [1, 2, 0x11, 1, 0x11, 2] ++ [] ∧
      (1 : Byte).toNat < 2) ∧
    (LegalCursors { State.reset with maxdepth := 0 } ∧ LegalCursors { loaded [] 0 0 0 with maxdepth := 1 } ∧
      State.input { loaded [] 0 0 0 with maxdepth := 1 } = []) ∧
    (State.input (loaded [4] 0 0 0) = 4 :: [] ∧ (4 : Byte).toNat ∉ [0, 1, 2, 3, 5, 6, 9, 10, 15, 16, 17, 18, 25]) ∧
    (2 ≤ (loaded [2, 1] 0 0 0).maxdepth.toNat ∧ ItemBytes [2, 1] 2 1 [] 0 true ∧ (loaded [2, 1] 0 0 0).input = [2, 1] ∧
      (1 : Word) ≠ 0) :=
  ⟨⟨by decide, by rw [loaded_input _ _ _ _ (by decide)]; exact walk_absent⟩,
    ⟨tree_two, by decide, by decide⟩, by decide, by decide,
    by decide, .struct [1] 1 (prefix_short 1 (by decide)), by decide, by decide⟩

theorem witness_AxAttributePrimitives :
    ((loaded [] 0 0 0).input = [] ∧ LegalCursors (loaded [] 0 0 0)) ∧
    ((loaded [1, 0x11] 0 0 0).input = 1 :: [0x11] ∧ (2 : Byte) ≠ 0 ∧ (2 : Byte) ≠ 1) ∧
    (2 < 65536 ∧ 2 ≤ (loaded [0, 3] 0 0 0).input.length ∧ (loaded [0] 0 0 0).input.length < 2) ∧
    (LenPrefix [BitVec.ofNat 8 2] [0xAA#8, 0xBB#8].length ∧
      (loaded [2, 0xAA, 0xBB, 0xCC] 0 0 0).input = [BitVec.ofNat 8 2] ++ [0xAA, 0xBB] ++ [0xCC]) ∧
    (LenPrefix [BitVec.ofNat 8 5] 5 ∧ (loaded [5, 0xAA] 0 0 0).input = [BitVec.ofNat 8 5] ++ [0xAA] ∧
      [0xAA#8].length < 5) ∧
    ((loaded [0x80] 0 0 0).input = 0x80 :: [] ∧ (loaded [0xFF] 0 0 0).input = BitVec.ofNat 8 (0x80 + 127) :: [] ∧
      (loaded [0x85] 0 0 0).input = BitVec.ofNat 8 (0x80 + 5) :: [] ∧
      (loaded [0x84, 1, 2, 3] 0 0 0).input = BitVec.ofNat 8 (0x80 + 4) :: [1, 2, 3] ∧ [1#8, 2#8, 3#8].length < 4) :=
  ⟨by decide, by decide, by decide, ⟨prefix_short 2 (by decide), by decide⟩,
    ⟨prefix_short 5 (by decide), by decide, by decide⟩, by decide⟩

/-! ### HDLC -/

theorem server_one : AddrForm .server [0x03] 0x01010001 := .one .server 1 (by decide)

theorem client_ten : AddrForm .client [0x21] 0x01000010 := .one .client 0x10 (by decide)

theorem names_server_one : NamesAddress 0x00010001 .server [0x03] := ⟨_, server_one, by decide⟩

theorem names_client_ten : NamesAddress 0x00000010 .client [0x21] := ⟨_, client_ten, by decide⟩

/-- The longest address, with the LEN field and an ignored value in it. -/
theorem names_extended : NamesAddress 0x0703FF7F .server [0x00, 0xFE, 0x00, 0xFF] :=
  ⟨_, .four 127 127 (by decide) (by decide), by decide⟩

theorem addrForm_lt {r : Role} {bs : List Byte} {d : Word} (h : AddrForm r bs d) : d.toNat < 2 ^ 27 := by
  cases h with
  | one _ l h => cases r <;> simp <;> omega
  | two l p h h' => simp; omega
  | four l p h h' => simp; omega

theorem reserved_names_nothing (r : Role) (bs : List Byte) : ¬ NamesAddress 0x80000000 r bs := by
  rintro ⟨d, h, e⟩
  have hd : d.getLsbD 31 = false := by
    have := addrForm_lt h
    rw [BitVec.getLsbD, Nat.testBit_lt_two_pow (by omega)]
  have he := congrArg (fun v : Word => v.getLsbD 31) e
  split at he <;> simp [-BitVec.getLsbD_eq_getElem, hd] at he

theorem witness_AddrEncEmitsTheAddress :
    LegalCursors (loaded [] 0x0703FF7F 0 0) ∧ NamesAddress (loaded [] 0x0703FF7F 0 0).arg0 .server [0, 0xFE, 0, 0xFF] ∧
    ∀ (r : Role) (bs : List Byte), ¬ NamesAddress (loaded [] 0x80000000 0 0).arg0 r bs :=
  ⟨by decide, names_extended, reserved_names_nothing⟩

theorem witness_AddrDecReadsAnAddress :
    LegalCursors (loaded [0x02, 0x23, 0xFF] 0 0 0) ∧ AddrForm .server [0x02, 0x23] 0x02019101 ∧
    (loaded [0x02, 0x23, 0xFF] 0 0 0).input = [0x02, 0x23] ++ [0xFF] :=
  ⟨by decide, .two 1 0x11 (by decide) (by decide), by decide⟩

theorem witness_AddrDecErrors :
    (∀ b ∈ [0x02#8, 0x04#8, 0x06#8, 0x08#8], b.getLsbD 0 = false) ∧
    ((loaded [2, 4, 6] 0 0 0).input = [2, 4, 6] ∧ [2#8, 4#8, 6#8].length < 4 ∧ (loaded [] 0 0 0).input = []) ∧
    (loaded [2, 4, 6, 8, 9] 0 0 0).input = [2, 4, 6, 8] ++ [9] ∧
    ((loaded [2, 4, 7] 0 0 0).input = [2, 4] ++ [7] ++ [] ∧ (7 : Byte).getLsbD 0 = true) ∧
    ((loaded [2, 3] 0 0 0).input = [2] ++ [3] ++ [] ∧ (3 : Byte).getLsbD 0 = true) ∧
    ((loaded [0, 4, 6, 9] 0 0 0).input = [0, 4, 6] ++ [9] ++ [] ∧ [0x00#8, 0x04#8, 0x06#8].getD 2 0 ≠ 0 ∧
      (∀ b ∈ [0x00#8, 0x04#8, 0x06#8], b.getLsbD 0 = false) ∧ (9 : Byte).getLsbD 0 = true) := by decide

theorem witness_AddressInvariants : addrbytes 0 0x0003FF7F = .ok [0x00, 0xFE, 0x00, 0xFF] := by decide

theorem witness_FormatFieldCommands :
    (LegalCursors (loaded [] 0xFFF 0 0) ∧ (loaded [] 0xFFF 0 0).arg0 = 0#20 ++ BitVec.ofBool true ++ 0x7FF#11) ∧
    (loaded [0xA8, 0x19] 0 0 0).input
      = [(0xA#4 ++ BitVec.ofBool true ++ 0x019#11).extractLsb' 8 8, (0x019#11).extractLsb' 0 8] ++ [] ∧
    2 ^ 12 ≤ (loaded [] 0x1000 0 0).arg0.toNat ∧ (loaded [0xA0] 0 0 0).input.length < 2 ∧
    ((loaded [0xB0, 0x07] 0 0 0).input = [0xB0, 0x07] ++ [] ∧ (0xB0#8).extractLsb' 4 4 ≠ 0xA#4) := by decide

theorem control_i : CtlForm 0xFE .info 0x1774 := .info 7 7 true (by decide) (by decide)

theorem control_snrm : CtlForm 0x93 .snrm 0x1000 := .snrm true

theorem ctlForm_lt {b : Byte} {ty : FrameType} {d : Word} (h : CtlForm b ty d) : d.toNat < 0x2000 := by
  cases h with
  | snrm pf => cases pf <;> decide
  | ua pf => cases pf <;> decide
  | disc pf => cases pf <;> decide
  | rr nr pf h => cases pf <;> simp <;> omega
  | info ns nr pf h h' => cases pf <;> simp <;> omega

theorem reserved_names_no_control (b : Byte) (ty : FrameType) : ¬ NamesControl 0x80000000 b ty := by
  intro h
  exact absurd (ctlForm_lt h) (by decide)

theorem no_control_87 (ty : FrameType) (d : Word) : ¬ CtlForm 0x87 ty d := by
  have rr : ∀ n : Fin 8, ∀ pf : Bool, BitVec.ofNat 8 (1 + 0x20 * n.val + 0x10 * pf.toNat) ≠ 0x87#8 := by decide
  have info : ∀ n m : Fin 8, ∀ pf : Bool, BitVec.ofNat 8 (2 * n.val + 0x20 * m.val + 0x10 * pf.toNat) ≠ 0x87#8 := by
    decide
  intro h
  generalize hb : (0x87 : Byte) = b at h
  cases h with
  | snrm pf => cases pf <;> simp at hb
  | ua pf => cases pf <;> simp at hb
  | disc pf => cases pf <;> simp at hb
  | rr nr pf h => exact rr ⟨nr, h⟩ pf hb.symm
  | info ns nr pf h h' => exact info ⟨ns, h⟩ ⟨nr, h'⟩ pf hb.symm

theorem witness_ControlByteCommands :
    (LegalCursors (loaded [] 0x7774 0 0) ∧ NamesControl (loaded [] 0x7774 0 0).arg0 0xFE .info) ∧
    (∀ (b : Byte) (ty : FrameType), ¬ NamesControl (loaded [] 0x80000000 0 0).arg0 b ty) ∧
    (loaded [] 0 0 0).input = [] ∧ ((loaded [0x93, 0x00] 0 0 0).input = 0x93 :: [0x00] ∧ CtlForm 0x93 .snrm 0x1000) ∧
    ((loaded [0x87] 0 0 0).input = 0x87 :: [] ∧ ∀ (ty : FrameType) (d : Word), ¬ CtlForm 0x87 ty d) :=
  ⟨⟨by decide, control_i⟩, reserved_names_no_control, by decide, ⟨by decide, control_snrm⟩, by decide, no_control_87⟩

/-- An I-frame of the longest length: 2047 = 7 + 1 + 1 + 3 + 2035 (vector F9). -/
theorem witness_FrmEncBuildsTheFrame :
    ∃ x : List Byte, LegalCursors (loaded x 0x00010001 0x00000010 0x1774) ∧
      NamesAddress (loaded x 0x00010001 0x00000010 0x1774).arg0 .server [0x03] ∧
      NamesAddress (loaded x 0x00010001 0x00000010 0x1774).arg1 .client [0x21] ∧
      NamesControl (loaded x 0x00010001 0x00000010 0x1774).arg2 0xFE .info ∧
      EncodesInfo .info 0x1774 (loaded x 0x00010001 0x00000010 0x1774).input ([0xE6, 0xE6, 0x00] ++ x) ∧
      bodyLength [0x03] [0x21] ([0xE6, 0xE6, 0x00] ++ x) = 2047 := by
  obtain ⟨x, hx⟩ : ∃ x : List Byte, x.length = 2035 := ⟨List.replicate 2035 0, List.length_replicate⟩
  refine ⟨x, loaded_legal _ _ _ _ (by omega), names_server_one, names_client_ten,
    (show CtlForm 0xFE .info (0x1774 &&& 0xFFFF9FFF#32) from control_i), ?_, by simp [bodyLength, hx]⟩
  rw [loaded_input _ _ _ _ (by omega)]
  simp [EncodesInfo]

/-- One state per error: the destination, the source and the control descriptor reserved, input on a DISC, and a frame
one byte too long (vectors F11 and F10). -/
theorem witness_FrmEncErrors :
    (∀ (r : Role) (bs : List Byte), ¬ NamesAddress (loaded [] 0x80000000 0 0).arg0 r bs) ∧
    NamesAddress 0x00010001 .server [0x03] ∧
    (∀ (r : Role) (bs : List Byte), ¬ NamesAddress (loaded [] 0x00010001 0x80000000 0).arg1 r bs) ∧
    NamesAddress 0x00000010 .client [0x21] ∧
    (∀ (b : Byte) (ty : FrameType), ¬ NamesControl (loaded [] 0x00010001 0x10 0x80000000).arg2 b ty) ∧
    (NamesControl 0x1002 0x53 .disc ∧ (loaded [1] 0x00010001 0x10 0x1002).input ≠ []) ∧
    ∃ x : List Byte, LegalCursors (loaded x 0x00010001 0x10 0x1774) ∧
      EncodesInfo .info 0x1774 (loaded x 0x00010001 0x10 0x1774).input ([0xE6, 0xE6, 0x00] ++ x) ∧
      bodyLength [0x03] [0x21] ([0xE6, 0xE6, 0x00] ++ x) = 2048 := by
  obtain ⟨x, hx⟩ : ∃ x : List Byte, x.length = 2036 := ⟨List.replicate 2036 0, List.length_replicate⟩
  refine ⟨reserved_names_nothing, names_server_one, reserved_names_nothing, names_client_ten, reserved_names_no_control,
    ⟨.disc true, by decide⟩, x, loaded_legal _ _ _ _ (by omega), ?_, by simp [bodyLength, hx]⟩
  rw [loaded_input _ _ _ _ (by omega)]
  simp [EncodesInfo]

/-- Vector F1's SNRM frame; and, for the forms of information, a response LLC header and none (vectors F12 and F13). -/
theorem witness_FrmDecReadsTheFrame :
    LegalCursors (loaded (frameBytes false [0x03] [0x21] 0x93 []) 0 0 0) ∧ AddrForm .server [0x03] 0x01010001 ∧
    AddrForm .client [0x21] 0x01000010 ∧ (CtlForm 0x93 .snrm 0x1000 ∧ CtlForm 0xFE .info 0x1774) ∧
    (InfoFits .snrm [] ∧ InfoFits .info [0xE7, 0xE7, 0x00, 0x01]) ∧
    (StripsTo .snrm [] [] 0 ∧ StripsTo .info [0xE7, 0xE7, 0x00, 0x01] [0x01] 2 ∧ StripsTo .info [0xAA] [0xAA] 0) ∧
    bodyLength [0x03] [0x21] [] ≤ 2047 ∧
    (loaded (frameBytes false [0x03] [0x21] 0x93 []) 0 0 0).input = frameBytes false [0x03] [0x21] 0x93 [] := by
  have hlen : (frameBytes false [0x03] [0x21] 0x93 []).length ≤ 4096 := by decide +kernel
  exact ⟨loaded_legal _ _ _ _ hlen, server_one, client_ten, ⟨control_snrm, control_i⟩, ⟨rfl, by simp [InfoFits]⟩,
    ⟨by simp [StripsTo], by simp [StripsTo], by simp [StripsTo]⟩, by decide, loaded_input _ _ _ _ hlen⟩

theorem witness_FrmDecFramingErrors :
    (loaded [] 0 0 0).input = [] ∧ (loaded [0x7E] 0 0 0).input = [0x7E] ∧
    (LegalCursors (loaded [0x7F, 0xA0, 0x7E] 0 0 0) ∧
      (loaded [0x7F, 0xA0, 0x7E] 0 0 0).input = [0x7F] ++ [0xA0] ++ [0x7E] ∧
        ((0x7F : Byte) ≠ 0x7E ∨ (0x7E : Byte) ≠ 0x7E)) ∧
    ((loaded [0x7E, 0xA0, 0x7E] 0 0 0).input = [0x7E] ++ [0xA0] ++ [0x7E] ∧ [0xA0#8].length < 2) ∧
    ((loaded [0x7E, 0xB0, 0x02, 0x7E] 0 0 0).input = [0x7E] ++ ([0xB0, 0x02] ++ []) ++ [0x7E] ∧
      (0xB0#8).extractLsb' 4 4 ≠ 0xA#4) ∧
    ((loaded [0x7E, 0xA0, 0x05, 0x7E] 0 0 0).input = [0x7E] ++ ([0xA0, 0x05] ++ []) ++ [0x7E] ∧
      (0xA0#8).extractLsb' 4 4 = 0xA#4 ∧ ((0xA0#8).extractLsb' 0 3 ++ 0x05#8).toNat ≠ [0xA0#8, 0x05#8].length) := by
  decide

/-- Bodies with the right length: a destination cut short and one of three bytes; a source cut short after a server
destination; no room for a control byte and an FCS; and three bytes after the control byte (vector F29). -/
theorem witness_FrmDecFramingErrors_body :
    ((loaded [0x7E, 0xA0, 0x03, 0x02, 0x7E] 0 0 0).input = [0x7E] ++ ([0xA0, 0x03] ++ [0x02]) ++ [0x7E] ∧
      (0xA0#8).extractLsb' 4 4 = 0xA#4 ∧ ((0xA0#8).extractLsb' 0 3 ++ 0x03#8).toNat = [0xA0#8, 0x03#8, 0x02#8].length ∧
      AddrFault .server 2 [0x02] 1 4 3) ∧
    (AddrFault .server 2 [0x02, 0x04, 0x07] 13 3 0 ∧ AddrFault .client 2 [0x02, 0x03] 13 2 0 ∧
      AddrFault .server 2 [2, 4, 6, 8] 13 4 0 ∧ AddrFault .server 2 [0, 4, 6, 9] 13 4 1) ∧
    (AddrForm .server [0x03] 0x01010001 ∧ AddrFault .client (2 + [0x03#8].length) [] 1 4 3 ∧
      (loaded [0x7E, 0xA0, 0x03, 0x03, 0x7E] 0 0 0).input = [0x7E] ++ ([0xA0, 0x03] ++ ([0x03] ++ [])) ++ [0x7E]) ∧
    (AddrForm .client [0x21] 0x01000010 ∧
      (loaded [0x7E, 0xA0, 0x06, 0x03, 0x21, 0x93, 0x00, 0x7E] 0 0 0).input
        = [0x7E] ++ ([0xA0, 0x06] ++ ([0x03] ++ ([0x21] ++ [0x93, 0x00]))) ++ [0x7E] ∧ [0x93#8, 0x00#8].length < 3) ∧
    ((loaded [0x7E, 0xA0, 0x08, 0x03, 0x21, 0x93, 0, 0, 0, 0x7E] 0 0 0).input
        = [0x7E] ++ ([0xA0, 0x08] ++ ([0x03] ++ ([0x21] ++ [0x93, 0, 0, 0]))) ++ [0x7E] ∧
      [0x93#8, 0, 0, 0].length = 4) :=
  ⟨⟨by decide, by decide, by decide, .cut [0x02] (by decide) (by decide)⟩,
    ⟨.three [0x02, 0x04] 0x07 [] (by decide) (by decide) (by decide),
      .client [0x02] 0x03 [] (by decide) (by decide) rfl (by decide),
      .endless [2, 4, 6, 8] [] (by decide) (by decide),
      .upper [0, 4, 6] 9 [] (by decide) (by decide) rfl (by decide) (by decide)⟩,
    ⟨server_one, .cut [] (by decide) (by decide), by decide⟩, ⟨client_ten, by decide, by decide⟩, by decide, by decide⟩

/-- A UA frame with one byte of information and a zero HCS, and an SNRM frame with a zero FCS. -/
theorem witness_FrmDecChecksumErrors :
    AddrForm .server [0x03] 0x01010001 ∧ AddrForm .client [0x21] 0x01000010 ∧ bodyLength [0x03] [0x21] [0xAA] ≤ 2047 ∧
    ([0xAA#8] ≠ [] ∧ [0x00#8, 0x00#8] ≠ crc16 (headerBytes false [0x03] [0x21] 0x73 [0xAA]) false ∧
      (loaded ([0x7E] ++ headerBytes false [0x03] [0x21] 0x73 [0xAA] ++ [0, 0] ++ [0xAA] ++ [0,
        0] ++ [0x7E]) 0 0 0).input
        = [0x7E] ++ headerBytes false [0x03] [0x21] 0x73 [0xAA] ++ [0, 0] ++ [0xAA] ++ [0, 0] ++ [0x7E]) ∧
    (LegalCursors (loaded ([0x7E] ++ coveredBytes false [0x03] [0x21] 0x93 [] ++ [0, 0] ++ [0x7E]) 0 0 0) ∧
      (loaded ([0x7E] ++ coveredBytes false [0x03] [0x21] 0x93 [] ++ [0, 0] ++ [0x7E]) 0 0 0).input
        = [0x7E] ++ coveredBytes false [0x03] [0x21] 0x93 [] ++ [0, 0] ++ [0x7E] ∧
      [0x00#8, 0x00#8] ≠ crc16 (coveredBytes false [0x03] [0x21] 0x93 []) false) :=
  ⟨server_one, client_ten, by decide, ⟨by decide, by decide +kernel, loaded_input _ _ _ _ (by decide)⟩,
    loaded_legal _ _ _ _ (by decide), loaded_input _ _ _ _ (by decide), by decide +kernel⟩

/-- A frame with the unknown control byte 0x87, and an SNRM frame with information (vector F31). -/
theorem witness_FrmDecContentErrors :
    AddrForm .server [0x03] 0x01010001 ∧ AddrForm .client [0x21] 0x01000010 ∧ bodyLength [0x03] [0x21] [0x01] ≤ 2047 ∧
    (LegalCursors (loaded (frameBytes false [0x03] [0x21] 0x87 []) 0 0 0) ∧
      (loaded (frameBytes false [0x03] [0x21] 0x87 []) 0 0 0).input = frameBytes false [0x03] [0x21] 0x87 [] ∧
      ∀ (ty : FrameType) (d : Word), ¬ CtlForm 0x87 ty d) ∧
    ((loaded (frameBytes false [0x03] [0x21] 0x93 [0x01]) 0 0 0).input = frameBytes false [0x03] [0x21] 0x93 [0x01] ∧
      CtlForm 0x93 .snrm 0x1000 ∧ ¬ InfoFits .snrm [0x01] ∧ ¬ InfoFits .info []) := by
  have h1 : (frameBytes false [0x03] [0x21] 0x87 []).length ≤ 4096 := by decide +kernel
  have h2 : (frameBytes false [0x03] [0x21] 0x93 [0x01]).length ≤ 4096 := by decide +kernel
  exact ⟨server_one, client_ten, by decide, ⟨loaded_legal _ _ _ _ h1, loaded_input _ _ _ _ h1, no_control_87⟩,
    loaded_input _ _ _ _ h2, control_snrm, by simp [InfoFits], by simp [InfoFits]⟩

theorem witness_FrameRoundTrip : ∃ r, frmencRule 0x0003FF7F 0x00000010 0x7774 [0xAA] = .ok r := by
  have h : (frmencRule 0x0003FF7F 0x00000010 0x7774 [0xAA]).toOption.isSome = true := by decide +kernel
  cases hr : frmencRule 0x0003FF7F 0x00000010 0x7774 [0xAA] with
  | ok r => exact ⟨r, rfl⟩
  | error e => rw [hr] at h; cases h

end Sys2Proof.Tests
end

/-! PROOF. The statements of 00_scope.md: every step keeps the invariant (O8), every command is one completion that
leaves the rest alone (O12), and a command reads its input region only (O13). -/
section

namespace Sys2Proof.Machine

/-! ### The invariant, one operation at a time -/

/-- R240: every error has one of the codes 1..14. -/
theorem CmdError.code_range (e : CmdError) : 1 ≤ e.code.toNat ∧ e.code.toNat ≤ 14 := by
  cases e <;> simp [CmdError.code]

theorem CmdError.code_ne_zero (e : CmdError) : e.code ≠ 0 := by
  intro h
  have hpos := e.code_range.1
  simp [h] at hpos

section Inv

variable {s : State} (h : Inv s)
include h

theorem inv_setOvr : Inv (setOvr s) := { h with }

theorem inv_logRead (v : Word) : Inv (logRead v s) := { h with }

theorem inv_countDraw : Inv (countDraw s) := { h with }

/-- R24: clearing DONE, ERR and OVR takes no error code away and sets no flag. -/
theorem inv_clearStatus (v : Word) : Inv (clearStatus v s) :=
  { h with
    errHasCode := fun he => h.errHasCode (by simp at he; exact he.1)
    busyQuiet := fun hb => by
      obtain ⟨hdone, herr, hcode⟩ := h.busyQuiet hb
      simp [hdone, herr, hcode] }

theorem inv_writeCtrl (v : Word) : Inv (writeCtrl v s) := { h with }

/-- R37: acceptance clears the flags and the code, and CMD reads the new word. -/
theorem inv_accept (w : Word) : Inv (accept w s) :=
  { h with
    ecodeRange := by simp
    errHasCode := by simp
    busyQuiet := by simp
    busyCmd := by simp
    errorResults := by simp
    successDetails := by simp }

/-- R271: a soft reset zeroes every register and keeps the buffers. -/
theorem inv_softReset : Inv (softReset s) :=
  { h with
    ecodeRange := by simp
    errHasCode := by simp
    busyQuiet := by simp
    busyCmd := by simp
    errorResults := by simp
    successDetails := by simp }

/-- R270: a power-on is a soft reset with no byte written yet. -/
theorem inv_powerOnReset : Inv (powerOnReset s) :=
  { inv_softReset h with
    ibufCanonical := List.Pairwise.nil
    obufCanonical := List.Pairwise.nil
    ibufWithin := by simp [Memory.within]
    obufWithin := by simp [Memory.within] }

/-- R242: an error completion sets a code of R240 and zeroes the results. -/
theorem inv_failWith (e : CmdError) : Inv (failWith e s) :=
  { h with
    ecodeRange := e.code_range.2
    errHasCode := fun _ => e.code_ne_zero
    busyQuiet := by simp
    busyCmd := by simp
    errorResults := by simp
    successDetails := fun _ he => absurd he e.code_ne_zero }

/-- R38: the commit of an output that fits the room stays inside OBUF. -/
theorem inv_commit {r : Result} (legal : LegalCursors s) (fits : r.out.length ≤ s.room) : Inv (commit r s) :=
  { h with
    obufCanonical := storeBytes_wf h.obufCanonical _ _
    obufWithin := storeBytes_within h.obufWithin (.inr (by
      obtain ⟨-, -, hocur⟩ := legal
      simp only [State.room] at fits
      omega))
    ecodeRange := by simp
    errHasCode := by simp
    busyQuiet := by simp
    busyCmd := by simp
    errorResults := by simp
    successDetails := by simp }

theorem inv_writeReg (r : Reg) (v : Word) : Inv (writeReg r v s) := by
  rcases writeReg_cases r v s with e | ⟨-, -, e⟩ | ⟨-, e⟩ | ⟨-, e⟩ |
    ⟨-, ⟨-, -, e⟩ | ⟨-, e⟩ | ⟨-, e⟩ | ⟨-, e⟩ | ⟨-, e⟩ | ⟨-, e⟩ | ⟨-, e⟩ | ⟨-, e⟩⟩ <;> rw [e]
  · exact h
  · exact inv_softReset h
  · exact inv_clearStatus h v
  · exact inv_setOvr h
  · exact inv_writeCtrl h v
  · exact inv_accept h v
  -- ICUR, IEND, OCUR, ARG0, ARG1 and ARG2 stand in no clause of the invariant.
  all_goals exact { h with }

theorem inv_busWrite (w : Width) (a : Offset) (v : Word) : Inv (busWrite w a v s) := by
  rcases busWrite_cases w a v s with e | ⟨r, e⟩ | ⟨-, e⟩ | ⟨-, i, bs, inside, e⟩ | ⟨-, i, bs, inside, e⟩ <;> rw [e]
  · exact h
  · exact inv_writeReg h r v
  · exact inv_setOvr h
  · exact { h with
      ibufCanonical := storeBytes_wf h.ibufCanonical _ _
      ibufWithin := storeBytes_within h.ibufWithin (.inr inside) }
  · exact { h with
      obufCanonical := storeBytes_wf h.obufCanonical _ _
      obufWithin := storeBytes_within h.obufWithin (.inr inside) }

theorem inv_busAccess (acc : BusAccess) : Inv (busAccess acc s) := by
  cases acc with
  | read w a =>
    show Inv (busRead w a s)
    obtain ⟨v, e | e⟩ := busRead_cases w a s <;> rw [e]
    · exact inv_logRead h v
    · exact inv_countDraw (inv_logRead h v)
  | write w a v => exact inv_busWrite h w a v

theorem inv_exec {i : Instr} {t : State} (ht : exec i s = .next t) : Inv t := by
  rcases exec_cases i s with ⟨e, he⟩ | ⟨r, legal, fits, -, he⟩ <;> cases he.symm.trans ht
  · exact inv_failWith h e
  · exact inv_commit h legal fits

theorem inv_engineTurn {t : State} (ht : engineTurn s = .next t) : Inv t := by
  rcases engineTurn_cases s with ⟨-, e⟩ | ⟨w, i, -, -, e⟩ | ⟨w, d, -, -, e⟩ <;> rw [e] at ht
  · cases ht; exact h
  · exact inv_exec h ht
  · cases ht; exact inv_failWith h _

theorem inv_withInputs (l : List Input) : Inv { s with inputs := l } := { h with }

theorem inv_step {t : State} (ht : step s = .next t) : Inv t := by
  rcases step_cases s with ⟨-, e⟩ | ⟨rest, -, e⟩ | ⟨rest, -, e⟩ | ⟨acc, rest, -, e⟩ <;> rw [e] at ht
  · exact inv_engineTurn h ht
  · exact inv_engineTurn (inv_withInputs h rest) ht
  · cases ht; exact inv_powerOnReset (inv_withInputs h rest)
  · cases ht; exact inv_busAccess (inv_withInputs h rest) acc

end Inv

/-- Settles O8: each case of `step_cases` is an operation that keeps the invariant. -/
theorem stepKeepsInv : Obligations.StepKeepsInv := fun _ _ h ht => inv_step h ht

/-! ### What a completion leaves alone -/

/-- With legal parameters (R3) an output that fits is shorter than 2^32 bytes, so OCNT counts it exactly. -/
theorem commit_ocnt_toNat {s : State} {r : Result} (legal : s.params.legal = true) (fits : r.out.length ≤ s.room) :
    (commit r s).ocnt.toNat = r.out.length := by
  have hsize : s.params.obufSize ≤ 4096 := by
    simp only [Params.legal, Bool.and_eq_true, decide_eq_true_eq] at legal
    exact legal.2
  simp only [State.room] at fits
  rw [commit_ocnt, BitVec.toNat_ofNat, Nat.mod_eq_of_lt (by omega)]

/-- Settles O12: by `exec_cases` the command ends in `failWith`, which leaves OBUF as it is, or in a `commit` that
fits, whose OCNT is the length of OUT. -/
theorem everyCommandCommitsOrFails : Obligations.EveryCommandCommitsOrFails := by
  intro i s
  rcases exec_cases i s with ⟨e, he⟩ | ⟨r, -, fits, -, he⟩
  · exact ⟨_, he, .inr ⟨_, _, _, failed_failWith e s, e.code_range⟩, fun _ _ _ => rfl⟩
  · refine ⟨_, he, .inl ⟨r, committed_commit r s, fits⟩, fun legal k hk => ?_⟩
    rw [commit_ocnt_toNat legal fits] at hk
    exact (committed_commit r s).kept k hk

/-! ### What a command reads -/

/-- A command's rule depends on the state through MAXDEPTH, the ARG registers and the input region only. -/
theorem ruleOf_congr (i : Instr) {s u : State} (input : u.input = s.input) (maxdepth : u.maxdepth = s.maxdepth)
    (arg0 : u.arg0 = s.arg0) (arg1 : u.arg1 = s.arg1) (arg2 : u.arg2 = s.arg2) : ruleOf i u = ruleOf i s := by
  simp only [ruleOf, input, maxdepth, arg0, arg1, arg2]

/-- One rule run over other buffers ends the same way: the pre-checks and the room do not depend on the contents. -/
theorem runCommand_otherBuffers (rule : Except CmdError Result) (s : State) (m o : Memory) :
    (∃ e, runCommand rule s = .next (failWith e s) ∧
      runCommand rule { s with ibuf := m, obuf := o } = .next (failWith e { s with ibuf := m, obuf := o })) ∨
    (∃ r, r.out.length ≤ s.room ∧ runCommand rule s = .next (commit r s) ∧
      runCommand rule { s with ibuf := m, obuf := o } = .next (commit r { s with ibuf := m, obuf := o })) := by
  rcases runCommand_cases rule s with ⟨e, hp, h⟩ | ⟨legal, e, rfl, h⟩ | ⟨legal, r, rfl, long, h⟩ |
    ⟨legal, r, rfl, fits, h⟩
  · have hp' : preCheck { s with ibuf := m, obuf := o } = some e := hp
    exact .inl ⟨e, h, by simp only [runCommand, hp']⟩
  · exact .inl ⟨e, h, runCommand_error (s := { s with ibuf := m, obuf := o }) legal e⟩
  · exact .inl ⟨_, h, runCommand_overflow (s := { s with ibuf := m, obuf := o }) legal long⟩
  · exact .inr ⟨r, fits, h, runCommand_ok (s := { s with ibuf := m, obuf := o }) legal fits⟩

/-- Settles O13: the rule is the same over the other buffers (`ruleOf_congr`), so it ends the same way
(`runCommand_otherBuffers`), and a commit stores the same OUT over the other OBUF. -/
theorem commandSeesOnlyItsInputRegion : Obligations.CommandSeesOnlyItsInputRegion := by
  intro i s t m o legal input ht
  have rule : ruleOf i { s with ibuf := m, obuf := o } = ruleOf i s := ruleOf_congr i input rfl rfl rfl rfl
  rw [exec_eq] at ht ⊢
  rw [rule]
  rcases runCommand_otherBuffers (ruleOf i s) s m o with ⟨e, hs, hu⟩ | ⟨r, fits, hs, hu⟩ <;> cases hs.symm.trans ht
  · refine ⟨o, hu, fun k => ?_⟩
    rw [if_neg (by simp)]
  · refine ⟨o.storeBytes s.ocur.toNat r.out, hu, fun k => ?_⟩
    rw [commit_ocnt_toNat legal fits, commit_obuf, lookup_storeBytes, lookup_storeBytes]
    by_cases hk : s.ocur.toNat ≤ k ∧ k < s.ocur.toNat + r.out.length <;> simp [hk]

end Sys2Proof.Machine
end

/-! PROOF. The statements of 10_state.md: steps and busy commands (O5, O6, O7, O9, O10, O27), the cursors (O14), the
resets (O15), the register map and the host's accesses (O16 to O22), and the CRC table (O30). -/
section

namespace Sys2Proof.Machine

/-! ### The engine's turn -/

/-- R38, R242: a command answers a next state in which the machine is idle, with OVR as before. -/
theorem exec_completes (i : Instr) (s : State) : ∃ t, exec i s = .next t ∧ t.busy = false ∧ t.ovr = s.ovr := by
  rcases exec_cases i s with ⟨e, he⟩ | ⟨r, -, -, -, he⟩
  · exact ⟨_, he, rfl, rfl⟩
  · exact ⟨_, he, rfl, rfl⟩

/-- R38, R253: the engine's turn answers a next state in which the machine is idle, with OVR as before. -/
theorem engineTurn_completes (s : State) : ∃ t, engineTurn s = .next t ∧ t.busy = false ∧ t.ovr = s.ovr := by
  rcases engineTurn_cases s with ⟨hp, e⟩ | ⟨w, i, -, -, e⟩ | ⟨w, d, -, -, e⟩ <;> rw [e]
  · exact ⟨s, rfl, (not_busy_iff s).mpr hp, rfl⟩
  · exact exec_completes i s
  · exact ⟨_, rfl, rfl, rfl⟩

theorem engineTurn_idle {s t : State} (ht : engineTurn s = .next t) : t.busy = false := by
  obtain ⟨u, hu, idle, -⟩ := engineTurn_completes s
  cases hu.symm.trans ht
  exact idle

theorem engineTurn_ovr {s t : State} (ht : engineTurn s = .next t) : t.ovr = s.ovr := by
  obtain ⟨u, hu, -, ovr⟩ := engineTurn_completes s
  cases hu.symm.trans ht
  exact ovr

/-- The engine's turn on a latched legal word is its command. -/
theorem engineTurn_decoded {s : State} {w : Word} {i : Instr} (hp : s.pending = some w) (hd : decodeWord w = .ok i) :
    engineTurn s = exec i s := by
  simp [engineTurn, hp, runWord, hd]

/-! ### One step, by what stands first in `inputs` -/

theorem step_nil {s : State} (hi : s.inputs = []) : step s = engineTurn s := by
  simp [step, advance, hi]

theorem step_engine {s : State} {rest : List Input} (hi : s.inputs = .engine :: rest) :
    step s = engineTurn { s with inputs := rest } := by
  simp [step, advance, hi, perform]

theorem step_powerOn {s : State} {rest : List Input} (hi : s.inputs = .powerOn :: rest) :
    step s = .next (powerOnReset { s with inputs := rest }) := by
  simp [step, advance, hi, perform]

theorem step_write {s : State} {rest : List Input} {w : Width} {a : Offset} {v : Word}
    (hi : s.inputs = .host (.write w a v) :: rest) : step s = .next (busWrite w a v { s with inputs := rest }) := by
  simp [step, advance, hi, perform, busAccess]

theorem step_read {s : State} {rest : List Input} {w : Width} {a : Offset}
    (hi : s.inputs = .host (.read w a) :: rest) : step s = .next (busRead w a { s with inputs := rest }) := by
  simp [step, advance, hi, perform, busAccess]

/-- Settles O6: the engine's turn always completes (`engineTurn_completes`), and every other input is performed
outright. -/
theorem stepAlwaysAnswersNext : Obligations.StepAlwaysAnswersNext := by
  intro s
  rcases step_cases s with ⟨-, e⟩ | ⟨rest, -, e⟩ | ⟨rest, -, e⟩ | ⟨acc, rest, -, e⟩ <;> rw [e]
  · obtain ⟨t, ht, -⟩ := engineTurn_completes s
    exact ⟨t, ht⟩
  · obtain ⟨t, ht, -⟩ := engineTurn_completes { s with inputs := rest }
    exact ⟨t, ht⟩
  · exact ⟨_, rfl⟩
  · exact ⟨_, rfl⟩

/-- Settles O5: `step_nil` and `step_engine` give the turn to the engine, which runs the decoded word
(`engineTurn_decoded`); the word `withFetchWord` latches is `w` itself, as `w` has 32 bits. -/
theorem stepRunsDecodedCommand : Obligations.StepRunsDecodedCommand := by
  intro s w i hd
  refine ⟨fun hp hi => ?_, fun hp rest hi => ?_, ?_⟩
  · rw [step_nil hi, engineTurn_decoded hp hd]
  · rw [step_engine hi]
    exact engineTurn_decoded hp hd
  · have word : BitVec.ofNat 32 (w.toNat % 2 ^ 32) = w := by
      rw [Nat.mod_eq_of_lt w.isLt, BitVec.ofNat_toNat, BitVec.setWidth_eq]
    have fetch : s.withFetchWord 32 w.toNat = { accept w s with inputs := .engine :: s.inputs } := by
      rw [State.withFetchWord, word]
    rw [fetch, step_engine rfl]
    exact engineTurn_decoded rfl hd

/-- Settles O7: the buffers are empty and every register is 0 but for CTRL, which no clause reads. -/
theorem invHoldsAtReset : Obligations.InvHoldsAtReset where
  params := by decide
  ibufCanonical := List.Pairwise.nil
  obufCanonical := List.Pairwise.nil
  ibufWithin := by simp [State.reset, Memory.within]
  obufWithin := by simp [State.reset, Memory.within]
  ecodeRange := by decide
  errHasCode := by decide
  busyQuiet := by decide
  busyCmd := by simp [State.reset]
  errorResults := by decide
  successDetails := by decide

/-! ### A busy machine -/

/-- R33, R271: what a host write can do while a command is in flight: nothing, a drop with OVR, a STATUS write, or a
soft reset. -/
theorem busWrite_busy_cases (w : Width) (a : Offset) (v : Word) {s : State} (hb : s.busy = true) :
    busWrite w a v s = s ∨ busWrite w a v s = setOvr s ∨ busWrite w a v s = clearStatus v s ∨
      busWrite w a v s = softReset s := by
  rcases busWrite_cases w a v s with e | ⟨r, e⟩ | ⟨-, e⟩ | ⟨idle, -⟩ | ⟨idle, -⟩
  · exact .inl e
  · rw [e]
    rcases writeReg_cases r v s with e | ⟨-, -, e⟩ | ⟨-, e⟩ | ⟨-, e⟩ | ⟨idle, -⟩
    · exact .inl e
    · exact .inr (.inr (.inr e))
    · exact .inr (.inr (.inl e))
    · exact .inr (.inl e)
    · simp [hb] at idle
  · exact .inr (.inl e)
  · simp [hb] at idle
  · simp [hb] at idle

/-- What a step leaves alone from one busy state to the next (R33, R36): only OVR, DONE, ERR and the model's
own fields differ, and no flag of a completion rises. -/
def Undisturbed (s t : State) : Prop :=
  ∃ o, t = { s with ovr := o, done := t.done, err := t.err, inputs := t.inputs, reads := t.reads, draws := t.draws }
    ∧ (s.done = false → t.done = false) ∧ (s.err = false → t.err = false)

/-- R33, R36: a host access while busy either discards the command or leaves it undisturbed, and takes nothing from
the inputs to come. -/
theorem busAccess_busy (acc : BusAccess) {s : State} (hb : s.busy = true) :
    (busAccess acc s).inputs = s.inputs ∧ ((busAccess acc s).busy = false ∨ Undisturbed s (busAccess acc s)) := by
  cases acc with
  | read w a =>
    obtain ⟨v, e | e⟩ := busRead_cases w a s <;> rw [busAccess, e]
    · exact ⟨rfl, .inr ⟨s.ovr, rfl, id, id⟩⟩
    · exact ⟨rfl, .inr ⟨s.ovr, rfl, id, id⟩⟩
  | write w a v =>
    rcases busWrite_busy_cases w a v hb with e | e | e | e <;> rw [busAccess, e]
    · exact ⟨rfl, .inr ⟨s.ovr, rfl, id, id⟩⟩
    · exact ⟨rfl, .inr ⟨true, rfl, id, id⟩⟩
    · exact ⟨rfl, .inr ⟨_, rfl, fun h => by simp [h], fun h => by simp [h]⟩⟩
    · exact ⟨rfl, .inl rfl⟩

/-- One step of a busy machine (R38): it ends idle, or it was a host access that leaves the command undisturbed and
uses up one input. -/
theorem step_busy {s t : State} (hb : s.busy = true) (ht : step s = .next t) :
    t.busy = false ∨ (Undisturbed s t ∧ ∃ i, s.inputs = i :: t.inputs) := by
  rcases step_cases s with ⟨-, e⟩ | ⟨rest, -, e⟩ | ⟨rest, -, e⟩ | ⟨acc, rest, hi, e⟩ <;> rw [e] at ht
  · exact .inl (engineTurn_idle ht)
  · exact .inl (engineTurn_idle ht)
  · cases ht
    exact .inl rfl
  · cases ht
    obtain ⟨inputs, idle | ⟨o, eq, done, err⟩⟩ := busAccess_busy acc (s := { s with inputs := rest }) hb
    · exact .inl idle
    · exact .inr ⟨⟨o, eq, done, err⟩, _, hi.trans (congrArg _ inputs.symm)⟩

/-- Settles O9: the step is not the one that ends the command, so `step_busy` leaves the command undisturbed. -/
theorem busyCommandIsUndisturbed : Obligations.BusyCommandIsUndisturbed := by
  intro s t w hp ht hb
  rcases step_busy ((busy_iff s).mpr ⟨w, hp⟩) ht with idle | ⟨same, -⟩
  · simp [hb] at idle
  · exact same

/-- Settles O10: by induction on the inputs, each busy step uses up one (`step_busy`), and with none left the engine
has its turn. -/
theorem busyEndsWithinInputs : Obligations.BusyEndsWithinInputs := by
  intro s
  generalize hn : s.inputs.length = n
  induction n generalizing s with
  | zero =>
    intro _
    obtain ⟨t, ht, idle, -⟩ := engineTurn_completes s
    have hstep : step s = .next t := (step_nil (List.length_eq_zero_iff.mp hn)).trans ht
    exact ⟨1, t, Nat.le_refl _, by simp [Host.Core.run, core, hstep], idle⟩
  | succ n ih =>
    intro hb
    obtain ⟨t, hstep⟩ := stepAlwaysAnswersNext s
    cases idle : t.busy with
    | false => exact ⟨1, t, by omega, by simp [Host.Core.run, core, hstep], idle⟩
    | true =>
      obtain ⟨-, i, hi⟩ := (step_busy hb hstep).resolve_left (by simp [idle])
      obtain ⟨k, u, hk, hrun, hu⟩ := ih t (by simpa [hi] using hn) idle
      exact ⟨k + 1, u, by omega, by simpa [Host.Core.run, core, hstep] using hrun, hu⟩

theorem busRead_ovr (w : Width) (a : Offset) (s : State) : (busRead w a s).ovr = s.ovr := by
  obtain ⟨v, e | e⟩ := busRead_cases w a s <;> rw [e] <;> rfl

/-- R24, R33: a host write either is dropped and sets OVR, or raises no OVR. -/
theorem busWrite_ovr (w : Width) (a : Offset) (v : Word) (s : State) :
    (s.busy = true ∧ busWrite w a v s = setOvr s) ∨ ((busWrite w a v s).ovr = true → s.ovr = true) := by
  rcases busWrite_cases w a v s with e | ⟨r, e⟩ | ⟨hb, e⟩ | ⟨-, i, bs, -, e⟩ | ⟨-, i, bs, -, e⟩ <;> rw [e]
  · exact .inr id
  · rcases writeReg_cases r v s with e | ⟨-, -, e⟩ | ⟨-, e⟩ | ⟨hb, e⟩ |
      ⟨-, ⟨-, -, e⟩ | ⟨-, e⟩ | ⟨-, e⟩ | ⟨-, e⟩ | ⟨-, e⟩ | ⟨-, e⟩ | ⟨-, e⟩ | ⟨-, e⟩⟩ <;> rw [e]
    · exact .inr id
    · exact .inr (by simp)
    · exact .inr fun h => (Bool.and_eq_true_iff.mp h).1
    · exact .inl ⟨hb, rfl⟩
    -- No write that an idle machine performs touches OVR.
    all_goals exact .inr id
  · exact .inl ⟨hb, rfl⟩
  · exact .inr id
  · exact .inr id

/-- Settles O27: the engine's turn and a read keep OVR, a power-on clears it, and a host write sets it only when it is
dropped (`busWrite_ovr`). -/
theorem ovrIsSetOnlyByDroppedWrites : Obligations.OvrIsSetOnlyByDroppedWrites := by
  intro s t ht low high
  rcases step_cases s with ⟨-, e⟩ | ⟨rest, -, e⟩ | ⟨rest, -, e⟩ | ⟨acc, rest, hi, e⟩ <;> rw [e] at ht
  · simp [engineTurn_ovr ht, low] at high
  · simp [engineTurn_ovr ht, low] at high
  · cases ht
    simp at high
  · cases ht
    cases acc with
    | read w a =>
      exact absurd ((busRead_ovr w a _).symm.trans high) (by simp [low])
    | write w a v =>
      rcases busWrite_ovr w a v { s with inputs := rest } with ⟨hb, e⟩ | kept
      · exact ⟨hb, w, a, v, rest, hi, e⟩
      · exact absurd (kept high) (by simp [low])

/-! ### The register map and the regions of the window -/

/-- R3: the sizes of legal parameters. -/
theorem legal_sizes {p : Params} (h : p.legal = true) :
    2049 ≤ p.ibufSize ∧ p.ibufSize ≤ 4096 ∧ 2049 ≤ p.obufSize ∧ p.obufSize ≤ 4096 := by
  simp only [Params.legal, Bool.and_eq_true, decide_eq_true_eq] at h
  omega

theorem Reg.at?_offset (r : Reg) : Reg.at? r.offset = some r := by cases r <;> rfl

theorem Reg.eq_offset_of_at? {a : Nat} {r : Reg} (h : Reg.at? a = some r) : a = r.offset := by
  have found := List.find?_some h
  exact (eq_of_beq found).symm

/-- R21: the registers stand at the multiples of 4 up to 0x044. -/
theorem Reg.offset_bounds (r : Reg) : r.offset % 4 = 0 ∧ r.offset ≤ 0x044 := by cases r <;> decide

theorem Reg.exists_offset {a : Nat} (word : a % 4 = 0) (last : a ≤ 0x044) : ∃ r : Reg, a = r.offset := by
  have listed : ∀ k < 18, (Reg.at? (4 * k)).isSome = true := by decide
  obtain ⟨r, hr⟩ := Option.isSome_iff_exists.mp (listed (a / 4) (by omega))
  exact ⟨r, by rw [← Reg.eq_offset_of_at? hr]; omega⟩

theorem Reg.at?_none {a : Nat} (h : a % 4 ≠ 0 ∨ 0x044 < a) : Reg.at? a = none := by
  cases hr : Reg.at? a with
  | none => rfl
  | some r =>
    have bounds := r.offset_bounds
    rw [← Reg.eq_offset_of_at? hr] at bounds
    omega

/-- R34: the registers that stay readable while busy are the first four. -/
theorem Reg.readableBusy_iff (r : Reg) : r.readableBusy = true ↔ r.offset < 0x010 := by cases r <;> decide

theorem regionOf_registers {a : Offset} (h : a.toNat < 0x1000) : regionOf a = .registers a.toNat := by
  have row : a.toNat / 0x1000 = 0 := by omega
  simp [regionOf, row]

theorem regionOf_ibufWindow {a : Offset} (low : 0x1000 ≤ a.toNat) (high : a.toNat < 0x2000) :
    regionOf a = .ibufWindow (a.toNat - 0x1000) := by
  have row : a.toNat / 0x1000 = 1 := by omega
  simp [regionOf, row]

theorem regionOf_obufWindow {a : Offset} (low : 0x2000 ≤ a.toNat) (high : a.toNat < 0x3000) :
    regionOf a = .obufWindow (a.toNat - 0x2000) := by
  have row : a.toNat / 0x1000 = 2 := by omega
  simp [regionOf, row]

theorem regionOf_reserved {a : Offset} (low : 0x3000 ≤ a.toNat) : regionOf a = .reserved := by
  have row : a.toNat / 0x1000 = 3 := by have := a.isLt; omega
  simp [regionOf, row]

theorem aligned_iff (w : Width) (a : Offset) : aligned w a = true ↔ a.toNat % w.bytes = 0 := by simp [aligned]

theorem Width.bytes_pos (w : Width) : 0 < w.bytes := by cases w <;> decide

/-! ### What a register write does -/

theorem unlessBusy_busy {s : State} (hb : s.busy = true) (f : State → State) : unlessBusy f s = setOvr s := by
  simp [unlessBusy, hb]

theorem unlessBusy_idle {s : State} (hb : s.busy = false) (f : State → State) : unlessBusy f s = f s := by
  simp [unlessBusy, hb]

/-- R33: the registers whose every write is dropped while busy. -/
def Reg.guarded : List Reg := [.cmd, .icur, .iend, .ocur, .arg0, .arg1, .arg2]

/-- R21: the read-only registers. -/
def Reg.readOnly : List Reg := [.id, .icnt, .ocnt, .res0, .res1, .res2, .res3, .edet0, .edet1]

theorem Reg.mem_readOnly {r : Reg} (h : r ∉ Reg.ctrl :: .status :: Reg.guarded) : r ∈ Reg.readOnly := by
  revert h
  cases r <;> decide

theorem writeReg_guarded {r : Reg} (hr : r ∈ Reg.guarded) {s : State} (hb : s.busy = true) (v : Word) :
    writeReg r v s = setOvr s := by
  simp only [Reg.guarded, List.mem_cons, List.not_mem_nil, or_false] at hr
  rcases hr with rfl | rfl | rfl | rfl | rfl | rfl | rfl <;> simp only [writeReg, unlessBusy_busy hb]

theorem writeReg_readOnly {r : Reg} (hr : r ∈ Reg.readOnly) (v : Word) (s : State) : writeReg r v s = s := by
  simp only [Reg.readOnly, List.mem_cons, List.not_mem_nil, or_false] at hr
  rcases hr with rfl | rfl | rfl | rfl | rfl | rfl | rfl | rfl | rfl <;> rfl

/-- R271: a CTRL write with SRST = 1, busy or not. -/
theorem writeReg_ctrl_srst {v : Word} (srst : v.getLsbD 1 = true) (s : State) :
    writeReg .ctrl v s = softReset s := by
  simp only [writeReg, srst, if_true]

/-- R23, R33: a CTRL write with SRST = 0. -/
theorem writeReg_ctrl {v : Word} (srst : v.getLsbD 1 = false) (s : State) :
    writeReg .ctrl v s = unlessBusy (writeCtrl v) s := by
  simp only [writeReg, srst, Bool.false_eq_true, if_false]

/-! ### Accesses by region -/

theorem busWrite_listed {a : Offset} {r : Reg} (ha : a.toNat = r.offset) (v : Word) (s : State) :
    busWrite .w32 a v s = writeReg r v s := by
  have inside : a.toNat < 0x1000 := by have := r.offset_bounds; omega
  simp [busWrite, regionOf_registers inside, ha, Reg.at?_offset]

theorem busRead_listed {a : Offset} {r : Reg} (ha : a.toNat = r.offset) (s : State) :
    busRead .w32 a s =
      if s.busy ∧ ¬ r.readableBusy then countDraw (logRead (drawnWord s) s) else logRead (readReg r s) s := by
  have inside : a.toNat < 0x1000 := by have := r.offset_bounds; omega
  simp only [busRead, regionOf_registers inside, ha, Reg.at?_offset, if_true]

/-- R21, R62: nothing answers at a register offset that is not listed, or in another width. -/
theorem registerSelect_none {w : Width} {o : Nat} (h : w = .w32 → Reg.at? o = none) :
    (if w = .w32 then Reg.at? o else none) = none := by
  by_cases hw : w = .w32 <;> simp [hw, h]

theorem busWrite_unlisted {w : Width} {a : Offset} (inside : a.toNat < 0x1000)
    (h : w = .w32 → Reg.at? a.toNat = none) (v : Word) (s : State) : busWrite w a v s = s := by
  simp only [busWrite, regionOf_registers inside, registerSelect_none h]

theorem busRead_unlisted {w : Width} {a : Offset} (inside : a.toNat < 0x1000)
    (h : w = .w32 → Reg.at? a.toNat = none) (s : State) : busRead w a s = logRead 0 s := by
  simp only [busRead, regionOf_registers inside, registerSelect_none h]

/-- The step of a 32-bit write to a register. -/
theorem step_writeReg {s : State} {rest : List Input} {a : Offset} {v : Word} {r : Reg}
    (hi : s.inputs = .host (.write .w32 a v) :: rest) (ha : a.toNat = r.offset) :
    step s = .next (writeReg r v { s with inputs := rest }) := by
  rw [step_write hi, busWrite_listed ha]

/-- The step of a 32-bit read of a register that is readable in this state. -/
theorem step_readReg {s : State} {rest : List Input} {a : Offset} {r : Reg}
    (readable : s.busy = true → r.readableBusy = true) (hi : s.inputs = .host (.read .w32 a) :: rest)
    (ha : a.toNat = r.offset) : step s = .next (logRead (readReg r s) { s with inputs := rest }) := by
  have plain : ¬ (s.busy = true ∧ ¬ r.readableBusy = true) := fun ⟨hb, hr⟩ => hr (readable hb)
  have value : readReg r { s with inputs := rest } = readReg r s := by cases r <;> rfl
  rw [step_read hi, busRead_listed ha, busy_withInputs, if_neg plain, value]

/-- Settles O16: CMD is the register at 0x00C, and an idle machine accepts the write. -/
theorem cmdWriteIsAcceptedWhenIdle : Obligations.CmdWriteIsAcceptedWhenIdle := by
  intro s rest w hb hi
  have idle : State.busy { s with inputs := rest } = false := hb
  rw [step_writeReg (r := .cmd) hi rfl, writeReg, unlessBusy_idle idle]
  rfl

/-- Settles O21: STATUS is the register at 0x008, and its write is `clearStatus`, busy or not. -/
theorem statusWriteOneToClear : Obligations.StatusWriteOneToClear := by
  intro s rest v hi
  refine ⟨_, step_writeReg (r := .status) hi rfl, rfl, ?_, ?_, ?_⟩ <;> simp [writeReg]

/-- Settles O20: a register's own write, performed because the machine is idle; every offset that is none of the
writable registers' is unlisted or a read-only register's. -/
theorem registerWritesWhenIdle : Obligations.RegisterWritesWhenIdle := by
  intro s rest a v hb inside hi
  have idle : State.busy { s with inputs := rest } = false := hb
  refine ⟨fun ha => ?_, fun ha => ?_, fun ha => ?_, fun ha => ?_, fun ha => ?_, fun ha => ?_, fun ha srst => ?_,
    fun ha => ?_⟩
  · rw [step_writeReg (r := .icur) hi ha, writeReg, unlessBusy_idle idle]
  · rw [step_writeReg (r := .iend) hi ha, writeReg, unlessBusy_idle idle]
  · rw [step_writeReg (r := .ocur) hi ha, writeReg, unlessBusy_idle idle]
  · rw [step_writeReg (r := .arg0) hi ha, writeReg, unlessBusy_idle idle]
  · rw [step_writeReg (r := .arg1) hi ha, writeReg, unlessBusy_idle idle]
  · rw [step_writeReg (r := .arg2) hi ha, writeReg, unlessBusy_idle idle]
  · rw [step_writeReg (r := .ctrl) hi ha, writeReg_ctrl srst, unlessBusy_idle idle]
    rfl
  · cases hr : Reg.at? a.toNat with
    | none => rw [step_write hi, busWrite_unlisted inside fun _ => hr]
    | some r =>
      have at_r := Reg.eq_offset_of_at? hr
      have fixed : r ∈ Reg.readOnly := Reg.mem_readOnly fun h => ha (at_r ▸ List.mem_map_of_mem (f := Reg.offset) h)
      rw [step_writeReg hi at_r, writeReg_readOnly fixed]

/-! ### What a register read returns -/

/-- Two words put side by side are a sum of numbers. -/
theorem toNat_append_eq_add {m n : Nat} (x : BitVec m) (y : BitVec n) : (x ++ y).toNat = x.toNat * 2 ^ n + y.toNat := by
  rw [BitVec.toNat_append, ← Nat.shiftLeft_add_eq_or_of_lt y.isLt, Nat.shiftLeft_eq]

/-- R23: CTRL's fields side by side. -/
theorem ctrlWord_eq (s : State) : s.ctrlWord = 0#16 ++ s.maxdepth ++ 0#7 ++ BitVec.ofBool s.ie := by
  have hdepth := s.maxdepth.isLt
  have hie : s.ie.toNat ≤ 1 := Bool.toNat_le s.ie
  apply BitVec.eq_of_toNat_eq
  simp only [State.ctrlWord, toNat_append_eq_add, BitVec.toNat_ofNat, BitVec.toNat_ofBool]
  omega

/-- R24: STATUS's fields side by side. -/
theorem statusWord_eq (s : State) :
    s.statusWord = 0#16 ++ s.ecode ++ 0#4 ++ BitVec.ofBool s.ovr ++ BitVec.ofBool s.err ++ BitVec.ofBool s.done
      ++ BitVec.ofBool s.busy := by
  have hcode := s.ecode.isLt
  have hovr : s.ovr.toNat ≤ 1 := Bool.toNat_le s.ovr
  have herr : s.err.toNat ≤ 1 := Bool.toNat_le s.err
  have hdone : s.done.toNat ≤ 1 := Bool.toNat_le s.done
  have hbusy : s.busy.toNat ≤ 1 := Bool.toNat_le s.busy
  apply BitVec.eq_of_toNat_eq
  simp only [State.statusWord, toNat_append_eq_add, BitVec.toNat_ofNat, BitVec.toNat_ofBool]
  omega

/-- R21 to R30: a listed register reads as its rule lays it out. -/
theorem registerAt_listed (r : Reg) (s : State) : registerAt r.offset s = readReg r s := by
  cases r with
  | ctrl => exact (ctrlWord_eq s).symm
  | status => exact (statusWord_eq s).symm
  | _ => rfl

theorem registerAt_unlisted {a : Nat} (h : Reg.at? a = none) (s : State) : registerAt a s = 0 := by
  unfold registerAt
  split
  case h_19 => rfl
  all_goals exact absurd h (by decide)

/-- Settles O19: the offset is a register's, which is read as it is laid out, or unlisted. -/
theorem registerReadsWhenIdle : Obligations.RegisterReadsWhenIdle := by
  intro s rest a hb inside hi
  cases hr : Reg.at? a.toNat with
  | none =>
    rw [step_read hi, busRead_unlisted inside fun _ => hr, registerAt_unlisted hr]
    rfl
  | some r =>
    have at_r := Reg.eq_offset_of_at? hr
    rw [step_readReg (by simp [hb]) hi at_r, at_r, registerAt_listed]
    rfl

/-! ### Reset -/

theorem ctrlWord_softReset (s : State) : (softReset s).ctrlWord = 0x2000 := by simp [State.ctrlWord]

/-- R42, R271: a soft reset leaves every register at its reset value. -/
theorem resetRegisters_softReset (s : State) : ResetRegisters (softReset s) := by
  refine ⟨fun a => ?_, rfl, rfl⟩
  cases hr : Reg.at? a with
  | none =>
    rw [registerAt_unlisted hr]
    split
    · exact absurd hr (by decide)
    · exact absurd hr (by decide)
    · rfl
  | some r =>
    rw [Reg.eq_offset_of_at? hr, registerAt_listed]
    cases r with
    | ctrl => exact ctrlWord_softReset s
    | _ => rfl

/-- R270: a power-on is a soft reset over emptied buffers. -/
theorem powerOnReset_eq_softReset (s : State) :
    powerOnReset s = softReset { s with ibuf := [], obuf := [], powerUps := s.powerUps + 1 } := rfl

/-- Settles O15: each of the three states is a soft reset of some state (`resetRegisters_softReset`). -/
theorem resetLeavesResetValues : Obligations.ResetLeavesResetValues := by
  refine ⟨resetRegisters_softReset State.reset, fun s rest hi => ?_, fun s rest v hi srst => ?_⟩
  · refine ⟨_, step_powerOn hi, ?_, rfl, rfl, fun i => ⟨rfl, rfl⟩⟩
    rw [powerOnReset_eq_softReset]
    exact resetRegisters_softReset _
  · refine ⟨_, step_writeReg (r := .ctrl) hi rfl, ?_⟩
    rw [writeReg_ctrl_srst srst]
    exact ⟨resetRegisters_softReset _, rfl, rfl, fun i => ⟨rfl, rfl⟩⟩

/-! ### Buffer accesses -/

/-- R60, R63: an aligned write that begins inside IBUF. -/
theorem busWrite_ibuf {w : Width} {a : Offset} {s : State} (legal : s.params.legal = true)
    (fits : a.toNat % w.bytes = 0) (low : 0x1000 ≤ a.toNat) (high : a.toNat < 0x1000 + s.params.ibufSize) (v : Word) :
    busWrite w a v s =
      unlessBusy (fun s => { s with
        ibuf := s.ibuf.storeBytes (a.toNat - 0x1000) (lanesInside s.params.ibufSize (a.toNat - 0x1000) w.bytes v) })
        s := by
  have sizes := legal_sizes legal
  simp only [busWrite, regionOf_ibufWindow low (by omega : a.toNat < 0x2000)]
  rw [if_pos ⟨(aligned_iff w a).mpr fits, by omega⟩]

/-- R60, R63: an aligned write that begins inside OBUF. -/
theorem busWrite_obuf {w : Width} {a : Offset} {s : State} (legal : s.params.legal = true)
    (fits : a.toNat % w.bytes = 0) (low : 0x2000 ≤ a.toNat) (high : a.toNat < 0x2000 + s.params.obufSize) (v : Word) :
    busWrite w a v s =
      unlessBusy (fun s => { s with
        obuf := s.obuf.storeBytes (a.toNat - 0x2000) (lanesInside s.params.obufSize (a.toNat - 0x2000) w.bytes v) })
        s := by
  have sizes := legal_sizes legal
  simp only [busWrite, regionOf_obufWindow low (by omega : a.toNat < 0x3000)]
  rw [if_pos ⟨(aligned_iff w a).mpr fits, by omega⟩]

/-- R63: an aligned read of the IBUF window. -/
theorem busRead_ibuf {w : Width} {a : Offset} (fits : a.toNat % w.bytes = 0) (low : 0x1000 ≤ a.toNat)
    (high : a.toNat < 0x2000) (s : State) :
    busRead w a s = readBuffer s.ibufByte s.params.ibufSize (a.toNat - 0x1000) w.bytes s := by
  simp only [busRead, regionOf_ibufWindow low high, (aligned_iff w a).mpr fits, if_true]

/-- R63: an aligned read of the OBUF window. -/
theorem busRead_obuf {w : Width} {a : Offset} (fits : a.toNat % w.bytes = 0) (low : 0x2000 ≤ a.toNat)
    (high : a.toNat < 0x3000) (s : State) :
    busRead w a s = readBuffer s.obufByte s.params.obufSize (a.toNat - 0x2000) w.bytes s := by
  simp only [busRead, regionOf_obufWindow low high, (aligned_iff w a).mpr fits, if_true]

theorem lanes_append (l : List Byte) (b : Byte) : lanes (l ++ [b]) = lanes l + 256 ^ l.length * b.toNat := by
  induction l with
  | nil => simp [lanes]
  | cons c l ih =>
    simp only [List.cons_append, lanes, ih, List.length_cons, pow_succ]
    ring

/-- R64: the lanes of a word's low bytes make up its value mod 2^(8n). -/
theorem lanes_lanesOf (v : Word) (n : Nat) : lanes (lanesOf v n) = v.toNat % 2 ^ (8 * n) := by
  induction n with
  | zero => simp [lanesOf, lanes, Nat.mod_one]
  | succ n ih =>
    have snoc : lanesOf v (n + 1) = lanesOf v n ++ [v.extractLsb' (8 * n) 8] := by
      simp [lanesOf, List.range_succ]
    have len : (lanesOf v n).length = n := by simp [lanesOf]
    have base : (256 : Nat) ^ n = 2 ^ (8 * n) := by rw [Nat.pow_mul]
    rw [snoc, lanes_append, ih, len, base, BitVec.extractLsb'_toNat, Nat.shiftRight_eq_div_pow, Nat.mul_add,
      Nat.pow_add, Nat.mod_mul]

theorem lanes_eq_zero {l : List Byte} (h : ∀ b ∈ l, b = 0) : lanes l = 0 := by
  induction l with
  | nil => rfl
  | cons b l ih =>
    obtain ⟨hb, hl⟩ := List.forall_mem_cons.mp h
    simp [lanes, hb, ih hl]

/-- R60: a read that lies wholly past the buffer's size is 0. -/
theorem readLanes_past (byte : Nat → Byte) {size i : Nat} (past : size ≤ i) (n : Nat) :
    readLanes byte size i n = 0 := by
  have zeros : ∀ b ∈ (List.range n).map (fun j => if i + j < size then byte (i + j) else 0), b = 0 := by
    intro b hb
    obtain ⟨j, -, rfl⟩ := List.mem_map.mp hb
    rw [if_neg (by omega)]
  rw [readLanes, lanes_eq_zero zeros]
  rfl

/-- R34: a buffer read while busy that lies inside the buffer is the low bytes of a fresh free value. -/
theorem readBuffer_busy (byte : Nat → Byte) {size i n : Nat} {s : State} (hb : s.busy = true) (pos : 0 < n)
    (inside : i + n ≤ size) :
    readBuffer byte size i n s = countDraw (logRead (BitVec.ofNat 32 ((drawnWord s).toNat % 2 ^ (8 * n))) s) := by
  have drawn :
      (List.range n).map (fun j => if i + j < size then (drawnWord s).extractLsb' (8 * (i + j - i)) 8 else 0)
        = lanesOf (drawnWord s) n := by
    refine List.map_congr_left fun j hj => ?_
    have hj := List.mem_range.mp hj
    rw [if_pos (by omega), Nat.add_sub_cancel_left]
  rw [readBuffer, if_pos ⟨hb, by omega⟩, readLanes, drawn, lanes_lanesOf]

/-- R60: a buffer read past the buffer's size is 0 and draws nothing, busy or not. -/
theorem readBuffer_past (byte : Nat → Byte) {size i : Nat} (past : size ≤ i) (n : Nat) (s : State) :
    readBuffer byte size i n s = logRead 0 s := by
  rw [readBuffer, if_neg (fun h => absurd h.2 (by omega)), readLanes_past byte past]

/-! ### Accesses while busy -/

/-- Settles O17: a guarded register's write and a buffer write are dropped (`writeReg_guarded`, `unlessBusy_busy`);
STATUS, SRST and the read-only registers have their own rules. -/
theorem busyWritesAreDropped : Obligations.BusyWritesAreDropped := by
  intro s rest w a v legal hi
  refine ⟨fun hb => ?_, ?_⟩
  · have busy : State.busy { s with inputs := rest } = true := hb
    refine ⟨?_, ?_, fun fits low high => ?_, fun fits low high => ?_, ?_, ?_⟩
    · rintro rfl ha
      obtain ⟨r, guarded, at_r⟩ := List.mem_map.mp (show a.toNat ∈ Reg.guarded.map Reg.offset from ha)
      rw [step_writeReg hi at_r.symm, writeReg_guarded guarded busy]
      rfl
    · rintro rfl ha srst
      rw [step_writeReg (r := .ctrl) hi ha, writeReg_ctrl srst, unlessBusy_busy busy]
      rfl
    · rw [step_write hi, busWrite_ibuf (s := { s with inputs := rest }) legal fits low high, unlessBusy_busy busy]
      rfl
    · rw [step_write hi, busWrite_obuf (s := { s with inputs := rest }) legal fits low high, unlessBusy_busy busy]
      rfl
    · rintro rfl ha
      exact step_writeReg (r := .status) hi ha
    · rintro rfl ha srst
      refine ⟨_, step_writeReg (r := .ctrl) hi ha, ?_⟩
      rw [writeReg_ctrl_srst srst]
      exact resetRegisters_softReset _
  · rintro rfl ha
    obtain ⟨r, readOnly, at_r⟩ := List.mem_map.mp (show a.toNat ∈ Reg.readOnly.map Reg.offset from ha)
    rw [step_writeReg hi at_r.symm, writeReg_readOnly readOnly]

/-- Settles O18: the first four registers read true; another register's read draws a value, and so does a read inside a
buffer (`readBuffer_busy`). -/
theorem busyReadsAreUnspecified : Obligations.BusyReadsAreUnspecified := by
  intro s rest w a legal hb hi
  have busy : State.busy { s with inputs := rest } = true := hb
  have sizes := legal_sizes legal
  have pos := w.bytes_pos
  refine ⟨?_, ?_, ?_⟩
  · rintro rfl ha
    obtain ⟨r, readable, at_r⟩ :=
      List.mem_map.mp (show a.toNat ∈ [Reg.id, .ctrl, .status, .cmd].map Reg.offset from ha)
    have shown : ∀ r ∈ [Reg.id, .ctrl, .status, .cmd], r.readableBusy = true := by decide
    rw [step_readReg (fun _ => shown r readable) hi at_r.symm, ← at_r, registerAt_listed]
    rfl
  · rintro rfl word low high
    obtain ⟨r, at_r⟩ := Reg.exists_offset word high
    have hidden : ¬ r.readableBusy = true := by rw [Reg.readableBusy_iff]; omega
    rw [step_read hi, busRead_listed at_r, if_pos ⟨busy, hidden⟩]
    rfl
  · rintro fits (⟨low, high⟩ | ⟨low, high⟩)
    · have inside : a.toNat - 0x1000 + w.bytes ≤ s.params.ibufSize := by omega
      rw [step_read hi, busRead_ibuf fits low (by omega), readBuffer_busy _ busy pos inside]
      rfl
    · have inside : a.toNat - 0x2000 + w.bytes ≤ s.params.obufSize := by omega
      rw [step_read hi, busRead_obuf fits low (by omega), readBuffer_busy _ busy pos inside]
      rfl

/-! ### Ignored accesses -/

/-- R60, R62: the addresses and widths at which the block ignores every access. -/
def Ignored (p : Params) (w : Width) (a : Offset) : Prop :=
  (a.toNat < 0x1000 ∧ (w ≠ .w32 ∨ a.toNat % 4 ≠ 0)) ∨ (0x048 ≤ a.toNat ∧ a.toNat < 0x1000) ∨
    (0x1000 + p.ibufSize ≤ a.toNat ∧ a.toNat < 0x2000) ∨
    (0x2000 + p.obufSize ≤ a.toNat ∧ a.toNat < 0x3000) ∨ 0x3000 ≤ a.toNat

/-- An ignored access falls on no register, past a buffer's size, or in the reserved region. -/
theorem Ignored.cases {p : Params} {w : Width} {a : Offset} (h : Ignored p w a) :
    (a.toNat < 0x1000 ∧ (w = .w32 → Reg.at? a.toNat = none)) ∨
    (0x1000 + p.ibufSize ≤ a.toNat ∧ regionOf a = .ibufWindow (a.toNat - 0x1000)) ∨
    (0x2000 + p.obufSize ≤ a.toNat ∧ regionOf a = .obufWindow (a.toNat - 0x2000)) ∨ regionOf a = .reserved := by
  rcases h with ⟨inside, narrow | odd⟩ | ⟨past, inside⟩ | ⟨past, inside⟩ | ⟨past, inside⟩ | past
  · exact .inl ⟨inside, fun wide => absurd wide narrow⟩
  · exact .inl ⟨inside, fun _ => Reg.at?_none (.inl odd)⟩
  · exact .inl ⟨inside, fun _ => Reg.at?_none (.inr (by omega))⟩
  · exact .inr (.inl ⟨past, regionOf_ibufWindow (by omega) inside⟩)
  · exact .inr (.inr (.inl ⟨past, regionOf_obufWindow (by omega) inside⟩))
  · exact .inr (.inr (.inr (regionOf_reserved past)))

theorem busWrite_ignored {w : Width} {a : Offset} {s : State} (h : Ignored s.params w a) (v : Word) :
    busWrite w a v s = s := by
  rcases h.cases with ⟨inside, unlisted⟩ | ⟨past, region⟩ | ⟨past, region⟩ | region
  · exact busWrite_unlisted inside unlisted v s
  · simp only [busWrite, region]
    rw [if_neg (fun h => absurd h.2 (by omega))]
  · simp only [busWrite, region]
    rw [if_neg (fun h => absurd h.2 (by omega))]
  · simp only [busWrite, region]

theorem busRead_ignored {w : Width} {a : Offset} {s : State} (h : Ignored s.params w a) :
    busRead w a s = logRead 0 s := by
  rcases h.cases with ⟨inside, unlisted⟩ | ⟨past, region⟩ | ⟨past, region⟩ | region
  · exact busRead_unlisted inside unlisted s
  · simp only [busRead, region]
    rw [readBuffer_past _ (by omega), ite_self]
  · simp only [busRead, region]
    rw [readBuffer_past _ (by omega), ite_self]
  · simp only [busRead, region]

/-- Settles O22: the addresses of the statement are those of `Ignored`. -/
theorem ignoredAccessesDoNothing : Obligations.IgnoredAccessesDoNothing := by
  intro s rest w a v _ ignored
  have silent : Ignored (State.params { s with inputs := rest }) w a := ignored
  refine ⟨fun hi => ?_, fun hi => ?_⟩
  · rw [step_write hi, busWrite_ignored silent]
  · rw [step_read hi, busRead_ignored silent]
    rfl

/-! ### The CRC table -/

theorem crcTable_getD (i : Byte) : crcTable.getD i.toNat 0 = crcEntry i := by
  have bound : i.toNat < 256 := i.isLt
  simp [crcTable, bound]

/-- Settles O30: the table's entry `i` is `crcEntry i` (`crcTable_getD`), and the rest is evaluated. -/
theorem crcTableAndEmptyInput : Obligations.CrcTableAndEmptyInput := by
  refine ⟨by simp [crcTable], ?_, crcTable_getD, by decide, ?_⟩
  · decide
  · intro l
    cases l <;> decide

/-! ### What a command consumes -/

/-- A check before a rule that succeeds did not raise its error. -/
theorem raiseIf_bind_ok {α : Type} {p : Prop} [Decidable p] {e : CmdError} {f : Unit → Except CmdError α} {a : α}
    (h : (raiseIf p e >>= f) = .ok a) : ¬ p ∧ f () = .ok a := by
  rw [raiseIf_bind] at h
  split at h
  · cases h
  · exact ⟨‹_›, h⟩

/-- A rule that needs `n` bytes and succeeds found them. -/
theorem need_bind_ok {α : Type} {x : List Byte} {n : Nat} {f : Unit → Except CmdError α} {a : α}
    (h : (need x n >>= f) = .ok a) : n ≤ x.length ∧ f () = .ok a := by
  obtain ⟨present, h⟩ := raiseIf_bind_ok h
  exact ⟨Nat.not_lt.mp present, h⟩

/-- Two ways into the rest of a rule that succeeds: the rest did. -/
theorem ite_bind_ok {α β : Type} {c : Prop} [Decidable c] {m m' : Except CmdError α} {f : α → Except CmdError β}
    {b : β} (h : (if c then m >>= f else m' >>= f) = .ok b) : ∃ a, f a = .ok b := by
  split at h
  · obtain ⟨a, -, h⟩ := bind_ok h
    exact ⟨a, h⟩
  · obtain ⟨a, -, h⟩ := bind_ok h
    exact ⟨a, h⟩

section Consumed

variable {x : List Byte} {r : Result}

theorem berEncRule_consumed {tl : Nat} {a : Word} (h : berEncRule tl a x = .ok r) : r.consumed ≤ x.length := by
  obtain ⟨-, h⟩ := raiseIf_bind_ok h
  obtain ⟨-, h⟩ := raiseIf_bind_ok h
  split at h
  · cases h
    exact Nat.zero_le _
  · obtain ⟨-, h⟩ := raiseIf_bind_ok h
    cases h
    exact Nat.le_refl _

/-- R122: an element fills the input (P = 0) or lies inside it (P = 1). -/
theorem berDecRule_consumed {tl : Nat} {e p : Bool} {a : Word} (h : berDecRule tl e p a x = .ok r) :
    r.consumed ≤ x.length := by
  obtain ⟨-, h⟩ := raiseIf_bind_ok h
  obtain ⟨-, h⟩ := raiseIf_bind_ok h
  obtain ⟨header, h⟩ := need_bind_ok h
  obtain ⟨-, h⟩ := raiseIf_bind_ok h
  obtain ⟨strict, h⟩ := raiseIf_bind_ok h
  obtain ⟨cut, h⟩ := raiseIf_bind_ok h
  cases h
  cases p with
  | false =>
    have fills : x.length - tl - 1 = (byteAt x tl).toNat := by simpa using strict
    simp only
    omega
  | true =>
    have whole : (byteAt x tl).toNat ≤ x.length - tl - 1 := by simpa using cut
    simp only
    omega

theorem lendecRule_consumed (h : lendecRule x = .ok r) : r.consumed ≤ x.length := by
  obtain ⟨⟨v, k⟩, hl, h⟩ := bind_ok h
  cases h
  have := lendec_within hl
  simp only
  omega

theorem encInt_consumed {t : Byte} {signed : Bool} {w : Nat} {a : Word} (h : encInt t signed w a = .ok r) :
    r.consumed = 0 := by
  obtain ⟨-, h⟩ := raiseIf_bind_ok h
  cases h
  rfl

theorem encString_consumed {t : Byte} {a : Word} (h : encString t a x = .ok r) : r.consumed ≤ x.length := by
  obtain ⟨present, h⟩ := need_bind_ok h
  cases h
  exact present

theorem encContainer_consumed {t : Byte} {a : Word} (h : encContainer t a = .ok r) : r.consumed = 0 := by
  cases h
  rfl

theorem axEncRule_consumed {t : Byte} {a : Word} (h : axEncRule t a x = .ok r) : r.consumed ≤ x.length := by
  unfold axEncRule at h
  split at h
  · cases h
    exact Nat.zero_le _
  · obtain ⟨-, h⟩ := raiseIf_bind_ok h
    cases h
    exact Nat.zero_le _
  · exact (encInt_consumed h).trans_le (Nat.zero_le _)
  · exact (encInt_consumed h).trans_le (Nat.zero_le _)
  · exact (encInt_consumed h).trans_le (Nat.zero_le _)
  · exact (encInt_consumed h).trans_le (Nat.zero_le _)
  · exact (encInt_consumed h).trans_le (Nat.zero_le _)
  · exact (encInt_consumed h).trans_le (Nat.zero_le _)
  · exact encString_consumed h
  · exact encString_consumed h
  · exact (encContainer_consumed h).trans_le (Nat.zero_le _)
  · exact (encContainer_consumed h).trans_le (Nat.zero_le _)
  · obtain ⟨present, h⟩ := need_bind_ok h
    cases h
    exact present
  · cases h

theorem axDecRule_consumed {e : Bool} {tag : Byte} (h : axDecRule e tag x = .ok r) : r.consumed ≤ x.length := by
  obtain ⟨-, h⟩ := need_bind_ok h
  obtain ⟨-, h⟩ := raiseIf_bind_ok h
  obtain ⟨it, hi, h⟩ := bind_ok h
  cases h
  exact (item_within hi).2

/-- R160: a walk that starts inside the input and succeeds ends inside it. -/
theorem walkItems_inside {lim : Nat} : ∀ {fuel n d : Nat} {w v : Walk}, w.next ≤ x.length →
    walkItems x lim fuel n d w = .ok v → v.next ≤ x.length := by
  intro fuel
  induction fuel with
  | zero =>
    intro n d w v hw h
    cases n with
    | zero => cases h; exact hw
    | succ n => simp only [walkItems] at h; split at h <;> cases h
  | succ fuel ih =>
    intro n d w v hw h
    cases n with
    | zero => cases h; exact hw
    | succ n =>
      simp only [walkItems] at h
      split at h
      · cases h
      · obtain ⟨it, hi, h⟩ := bind_ok h
        have seen := (item_within hi).2
        split at h
        · obtain ⟨below, hb, h⟩ := bind_ok h
          exact ih (ih seen hb) h
        · exact ih seen h

theorem skipRule_consumed {maxdepth : Byte} (h : skipRule maxdepth x = .ok r) : r.consumed ≤ x.length := by
  obtain ⟨w, hw, h⟩ := bind_ok h
  cases h
  exact walkItems_inside (Nat.zero_le _) hw

theorem optRule_consumed (h : optRule x = .ok r) : r.consumed ≤ x.length := by
  obtain ⟨present, h⟩ := need_bind_ok h
  obtain ⟨-, h⟩ := raiseIf_bind_ok h
  cases h
  exact present

theorem fixedRule_consumed {n : Nat} (h : fixedRule n x = .ok r) : r.consumed ≤ x.length := by
  obtain ⟨present, h⟩ := need_bind_ok h
  cases h
  exact present

theorem varRule_consumed {t : Bool} (h : varRule t x = .ok r) : r.consumed ≤ x.length := by
  cases t with
  | true =>
    cases h
    exact Nat.le_refl _
  | false =>
    obtain ⟨⟨len, k⟩, -, h⟩ := bind_ok h
    obtain ⟨present, h⟩ := need_bind_ok h
    cases h
    exact present

theorem peekRule_consumed (h : peekRule x = .ok r) : r.consumed = 0 := by
  obtain ⟨-, h⟩ := need_bind_ok h
  cases h
  rfl

theorem addrencRule_consumed {a : Word} (h : addrencRule a = .ok r) : r.consumed = 0 := by
  obtain ⟨out, -, h⟩ := bind_ok h
  cases h
  rfl

/-- R183: the end-of-address bit that the scan finds lies at or after its start, inside the list. -/
theorem addrScan_within {k n : Nat} : ∀ {fuel i : Nat}, addrScan x k fuel i = .ok (some n) →
    i < n ∧ k + n ≤ x.length := by
  intro fuel
  induction fuel with
  | zero => intro i h; cases h
  | succ fuel ih =>
    intro i h
    rw [addrScan] at h
    split at h
    · cases h
    · split at h
      · cases h
        omega
      · have later := ih h
        omega

/-- R183: an address that `addrdec` reads lies inside the list. -/
theorem addrdec_within {k n : Nat} {role : Role} {d : Word} (h : addrdec x k role = .ok (d, n)) :
    k + n ≤ x.length := by
  obtain ⟨found, scan, h⟩ := bind_ok h
  cases found with
  | none => cases h
  | some m =>
    have inside := addrScan_within scan
    obtain ⟨three, h⟩ := raiseIf_bind_ok h
    obtain ⟨-, h⟩ := raiseIf_bind_ok h
    split at h
    · obtain ⟨-, rfl⟩ := Prod.mk.inj (Except.ok.inj h)
      omega
    · split at h
      · obtain ⟨-, rfl⟩ := Prod.mk.inj (Except.ok.inj h)
        omega
      · obtain ⟨-, h⟩ := raiseIf_bind_ok h
        obtain ⟨-, rfl⟩ := Prod.mk.inj (Except.ok.inj h)
        omega

theorem addrdecRule_consumed {role : Role} (h : addrdecRule role x = .ok r) : r.consumed ≤ x.length := by
  obtain ⟨⟨d, n⟩, hd, h⟩ := bind_ok h
  cases h
  have := addrdec_within hd
  simp only
  omega

theorem fmtencRule_consumed {a : Word} (h : fmtencRule a = .ok r) : r.consumed = 0 := by
  obtain ⟨-, h⟩ := raiseIf_bind_ok h
  cases h
  rfl

theorem fmtdecRule_consumed (h : fmtdecRule x = .ok r) : r.consumed ≤ x.length := by
  obtain ⟨present, h⟩ := need_bind_ok h
  obtain ⟨⟨len, seg⟩, -, h⟩ := bind_ok h
  cases h
  exact present

theorem ctlencRule_consumed {a : Word} (h : ctlencRule a = .ok r) : r.consumed = 0 := by
  obtain ⟨⟨ty, b⟩, -, h⟩ := bind_ok h
  cases h
  rfl

theorem ctldecRule_consumed (h : ctldecRule x = .ok r) : r.consumed ≤ x.length := by
  obtain ⟨present, h⟩ := need_bind_ok h
  obtain ⟨⟨ty, d⟩, -, h⟩ := bind_ok h
  cases h
  exact present

theorem frmencRule_consumed {a b c : Word} (h : frmencRule a b c x = .ok r) : r.consumed ≤ x.length := by
  obtain ⟨dst, -, h⟩ := bind_ok h
  obtain ⟨src, -, h⟩ := bind_ok h
  obtain ⟨⟨ty, ctl⟩, -, h⟩ := bind_ok h
  obtain ⟨info, -, h⟩ := bind_ok h
  obtain ⟨-, h⟩ := raiseIf_bind_ok h
  cases h
  exact Nat.le_refl _

theorem frmdecRule_consumed {dr sr : Role} (h : frmdecRule dr sr x = .ok r) : r.consumed ≤ x.length := by
  obtain ⟨-, h⟩ := raiseIf_bind_ok h
  obtain ⟨-, h⟩ := raiseIf_bind_ok h
  obtain ⟨⟨decl, seg⟩, -, h⟩ := bind_ok h
  obtain ⟨-, h⟩ := raiseIf_bind_ok h
  obtain ⟨⟨dd, dn⟩, -, h⟩ := bind_ok h
  obtain ⟨⟨sd, sn⟩, -, h⟩ := bind_ok h
  obtain ⟨-, h⟩ := raiseIf_bind_ok h
  obtain ⟨-, h⟩ := raiseIf_bind_ok h
  obtain ⟨_, h⟩ := ite_bind_ok h
  obtain ⟨-, -, h⟩ := bind_ok h
  obtain ⟨⟨ty, cd⟩, -, h⟩ := bind_ok h
  obtain ⟨-, h⟩ := raiseIf_bind_ok h
  cases h
  exact Nat.le_refl _

end Consumed

/-- R38: no rule consumes more than the input region. -/
theorem ruleOf_consumed {i : Instr} {s : State} {r : Result} (h : ruleOf i s = .ok r) : r.consumed ≤ s.avail := by
  rw [← input_length]
  cases i with
  | nop => cases h; exact Nat.zero_le _
  | crcHcs l => cases h; exact Nat.le_refl _
  | crcFcs l => cases h; exact Nat.le_refl _
  | berEnc tl => exact berEncRule_consumed h
  | berDec tl e p => exact berDecRule_consumed h
  | axLenenc => cases h; exact Nat.zero_le _
  | axLendec => exact lendecRule_consumed h
  | axEnc tag => exact axEncRule_consumed h
  | axDec e tag => exact axDecRule_consumed h
  | axSkip => exact skipRule_consumed h
  | axOpt => exact optRule_consumed h
  | axFixed n => exact fixedRule_consumed h
  | axVar t => exact varRule_consumed h
  | axPeek => exact (peekRule_consumed h).trans_le (Nat.zero_le _)
  | hAddrenc => exact (addrencRule_consumed h).trans_le (Nat.zero_le _)
  | hAddrdec role => exact addrdecRule_consumed h
  | hFmtenc => exact (fmtencRule_consumed h).trans_le (Nat.zero_le _)
  | hFmtdec => exact fmtdecRule_consumed h
  | hCtlenc => exact (ctlencRule_consumed h).trans_le (Nat.zero_le _)
  | hCtldec => exact ctldecRule_consumed h
  | hFrmenc => exact frmencRule_consumed h
  | hFrmdec dr sr => exact frmdecRule_consumed h

/-- A register advanced by a count that keeps it below 2^32 advances by that number. -/
theorem toNat_add_ofNat {c : Word} {n : Nat} (h : c.toNat + n < 2 ^ 32) :
    (c + BitVec.ofNat 32 n).toNat = c.toNat + n ∧ (BitVec.ofNat 32 n).toNat = n := by
  have small : (BitVec.ofNat 32 n).toNat = n := by
    rw [BitVec.toNat_ofNat, Nat.mod_eq_of_lt (by omega)]
  rw [BitVec.toNat_add, small, Nat.mod_eq_of_lt h]
  exact ⟨rfl, rfl⟩

/-- Settles O14: an error moves no cursor; a commit moves ICUR inside the input region (`ruleOf_consumed`) and OCUR
inside OBUF, as the output fits the room. -/
theorem cursorsAdvanceWithoutWrapping : Obligations.CursorsAdvanceWithoutWrapping := by
  intro i s t legal cursors ht
  rcases exec_cases i s with ⟨e, he⟩ | ⟨r, -, fits, hr, he⟩ <;> cases he.symm.trans ht
  · exact ⟨cursors, rfl, rfl⟩
  · have sizes := legal_sizes legal
    obtain ⟨hiend, hicur, hocur⟩ := cursors
    have taken := ruleOf_consumed hr
    simp only [State.avail] at taken
    simp only [State.room] at fits
    obtain ⟨icur, icnt⟩ := toNat_add_ofNat (c := s.icur) (n := r.consumed) (by omega)
    obtain ⟨ocur, ocnt⟩ := toNat_add_ofNat (c := s.ocur) (n := r.out.length) (by omega)
    refine ⟨⟨hiend, ?_, ?_⟩, ?_, ?_⟩
    · rw [commit_icur, commit_iend, icur]
      omega
    · rw [commit_ocur, commit_params, ocur]
      omega
    · rw [commit_icur, commit_icnt, icur, icnt]
    · rw [commit_ocur, commit_ocnt, ocur, ocnt]

end Sys2Proof.Machine
end

/-! PROOF. The statements of 20_memory.md: the byte lanes of a buffer access (O23), reads without side effects
(O24), and the bus window (O26). -/
section

namespace Sys2Proof.Machine

/-! ### Byte lanes -/

theorem Width.bytes_le (w : Width) : w.bytes ≤ 4 := by cases w <;> decide

/-- R64: `n` lanes make up a value of `n` bytes. -/
theorem lanes_lt (l : List Byte) : lanes l < 256 ^ l.length := by
  induction l with
  | nil => simp [lanes]
  | cons b l ih =>
    have hb := b.isLt
    simp only [lanes, List.length_cons, pow_succ]
    omega

/-- R64: lane `j` of a value is digit `j` of it to base 256. -/
theorem lanes_div_mod {l : List Byte} {j : Nat} (hj : j < l.length) : lanes l / 256 ^ j % 256 = l[j].toNat := by
  induction l generalizing j with
  | nil => cases hj
  | cons b l ih =>
    have hb := b.isLt
    cases j with
    | zero =>
      simp only [lanes, pow_zero, Nat.div_one, List.getElem_cons_zero]
      omega
    | succ j =>
      have tail : lanes (b :: l) / 256 = lanes l := by
        simp only [lanes]
        omega
      rw [pow_succ', ← Nat.div_div_eq_div_mul, tail, ih (Nat.lt_of_succ_lt_succ hj), List.getElem_cons_succ]

/-- R62, R64: up to four lanes fit a word. -/
theorem lanes_lt_word {l : List Byte} (short : l.length ≤ 4) : lanes l < 2 ^ 32 :=
  (lanes_lt l).trans_le (Nat.pow_le_pow_right (by decide : 0 < 256) short)

/-- R64: a buffer read of `n` bytes has `n` bytes. -/
theorem readLanes_lt (byte : Nat → Byte) (size i n : Nat) : (readLanes byte size i n).toNat < 2 ^ (8 * n) := by
  have bound := lanes_lt ((List.range n).map fun j => if i + j < size then byte (i + j) else 0)
  rw [List.length_map, List.length_range] at bound
  rw [readLanes, BitVec.toNat_ofNat, Nat.pow_mul]
  exact (Nat.mod_le _ _).trans_lt bound

/-- R60, R64: lane `j` of a buffer read is the byte at `i + j`, or 0 past the buffer's size. -/
theorem readLanes_lane (byte : Nat → Byte) (size i : Nat) {n j : Nat} (short : n ≤ 4) (hj : j < n) :
    (readLanes byte size i n).extractLsb' (8 * j) 8 = if i + j < size then byte (i + j) else 0 := by
  have lane := lanes_div_mod (l := (List.range n).map fun j => if i + j < size then byte (i + j) else 0) (j := j)
    (by simpa using hj)
  have base : (2 : Nat) ^ (8 * j) = 256 ^ j := Nat.pow_mul 2 8 j
  apply BitVec.eq_of_toNat_eq
  rw [BitVec.extractLsb'_toNat, readLanes, BitVec.toNat_ofNat, Nat.mod_eq_of_lt (lanes_lt_word (by simpa using short)),
    Nat.shiftRight_eq_div_pow, base]
  simpa using lane

theorem lanesInside_length (size i n : Nat) (v : Word) : (lanesInside size i n v).length = min (size - i) n := by
  simp [lanesInside, lanesOf]

theorem lanesInside_getD {size i n j : Nat} {v : Word} (hj : j < (lanesInside size i n v).length) :
    (lanesInside size i n v).getD j 0 = v.extractLsb' (8 * j) 8 := by
  rw [List.getD_eq_getElem _ _ hj]
  simp [lanesInside, lanesOf]

/-- R34: while idle a buffer read returns the buffer's lanes. -/
theorem readBuffer_idle (byte : Nat → Byte) (size i n : Nat) {s : State} (idle : s.busy = false) :
    readBuffer byte size i n s = logRead (readLanes byte size i n) s := by
  simp [readBuffer, idle]

/-- R60, R64: what a buffer holds after the lanes of a write are stored: lane `k - i` of the data at the offsets
`k` that the access covers inside the buffer, the old byte elsewhere. -/
theorem lookup_storeLanes (m : Memory) (size i n : Nat) (v : Word) (k : Nat) :
    (m.storeBytes i (lanesInside size i n v)).lookup k =
      if i ≤ k ∧ k < i + n ∧ k < size then some (v.extractLsb' (8 * (k - i)) 8) else m.lookup k := by
  have len := lanesInside_length size i n v
  rw [lookup_storeBytes]
  by_cases covered : i ≤ k ∧ k < i + n ∧ k < size
  · rw [if_pos (by omega), if_pos covered, lanesInside_getD (by omega)]
  · rw [if_neg (by omega), if_neg covered]

/-! ### The two buffers of the window -/

/-- R60: `base` and `size` are those of the buffer of `s` whose bytes `byteOf` reads. -/
def BufferAt (s : State) (base size : Nat) (byteOf : State → Nat → Byte) : Prop :=
  (base = 0x1000 ∧ size = s.params.ibufSize ∧ byteOf = State.ibufByte) ∨
    (base = 0x2000 ∧ size = s.params.obufSize ∧ byteOf = State.obufByte)

theorem BufferAt.past_registers {s : State} {base size : Nat} {byteOf : State → Nat → Byte}
    (buffer : BufferAt s base size byteOf) : 0x1000 ≤ base := by
  rcases buffer with ⟨rfl, -⟩ | ⟨rfl, -⟩ <;> decide

/-- A buffer's bytes do not depend on the list of inputs. -/
theorem BufferAt.byteOf_withInputs {s : State} {base size : Nat} {byteOf : State → Nat → Byte}
    (buffer : BufferAt s base size byteOf) (l : List Input) : byteOf { s with inputs := l } = byteOf s := by
  rcases buffer with ⟨-, -, rfl⟩ | ⟨-, -, rfl⟩ <;> rfl

section Buffer

variable {s : State} {base size : Nat} {byteOf : State → Nat → Byte} {w : Width} {a : Offset}
  (legal : s.params.legal = true) (buffer : BufferAt s base size byteOf)
  (low : base ≤ a.toNat) (high : a.toNat < base + size)
include legal buffer low high

/-- R63: an aligned read that begins inside a buffer. -/
theorem busRead_buffer (fits : a.toNat % w.bytes = 0) :
    busRead w a s = readBuffer (byteOf s) size (a.toNat - base) w.bytes s := by
  have sizes := legal_sizes legal
  rcases buffer with ⟨rfl, rfl, rfl⟩ | ⟨rfl, rfl, rfl⟩
  · exact busRead_ibuf fits low (by omega) s
  · exact busRead_obuf fits low (by omega) s

/-- R60, R63, R64: an aligned write that begins inside a buffer stores its lanes there and changes nothing else. -/
theorem busWrite_buffer (idle : s.busy = false) (fits : a.toNat % w.bytes = 0) (v : Word) :
    ∃ t, busWrite w a v s = t ∧ (t = { s with ibuf := t.ibuf } ∨ t = { s with obuf := t.obuf }) ∧
      ∀ k, byteOf t k =
        if a.toNat - base ≤ k ∧ k < a.toNat - base + w.bytes ∧ k < size
        then v.extractLsb' (8 * (k - (a.toNat - base))) 8 else byteOf s k := by
  rcases buffer with ⟨rfl, rfl, rfl⟩ | ⟨rfl, rfl, rfl⟩
  · rw [busWrite_ibuf legal fits low high, unlessBusy_idle idle]
    generalize a.toNat - 0x1000 = i
    refine ⟨_, rfl, .inl rfl, fun k => ?_⟩
    rw [State.ibufByte, lookup_storeLanes, apply_ite (Option.getD · _)]
    rfl
  · rw [busWrite_obuf legal fits low high, unlessBusy_idle idle]
    generalize a.toNat - 0x2000 = i
    refine ⟨_, rfl, .inr rfl, fun k => ?_⟩
    rw [State.obufByte, lookup_storeLanes, apply_ite (Option.getD · _)]
    rfl

end Buffer

/-! ### Misaligned accesses -/

/-- R60: an address past the register region lies in a buffer's window or in the reserved region. -/
theorem regionOf_past_registers {a : Offset} (window : 0x1000 ≤ a.toNat) :
    regionOf a = .ibufWindow (a.toNat - 0x1000) ∨ regionOf a = .obufWindow (a.toNat - 0x2000) ∨
      regionOf a = .reserved := by
  rcases Nat.lt_or_ge a.toNat 0x2000 with h | h
  · exact .inl (regionOf_ibufWindow window h)
  · rcases Nat.lt_or_ge a.toNat 0x3000 with h' | h'
    · exact .inr (.inl (regionOf_obufWindow h h'))
    · exact .inr (.inr (regionOf_reserved h'))

/-- R63: a misaligned write past the register region is ignored, busy or not. -/
theorem busWrite_misaligned {w : Width} {a : Offset} (window : 0x1000 ≤ a.toNat) (odd : a.toNat % w.bytes ≠ 0)
    (v : Word) (s : State) : busWrite w a v s = s := by
  have unaligned := mt (aligned_iff w a).mp odd
  rcases regionOf_past_registers window with region | region | region <;> simp [busWrite, region, unaligned]

/-- R63: a misaligned read past the register region returns 0, busy or not. -/
theorem busRead_misaligned {w : Width} {a : Offset} (window : 0x1000 ≤ a.toNat) (odd : a.toNat % w.bytes ≠ 0)
    (s : State) : busRead w a s = logRead 0 s := by
  have unaligned := mt (aligned_iff w a).mp odd
  rcases regionOf_past_registers window with region | region | region <;> simp [busRead, region, unaligned]

/-! ### The statements -/

/-- Settles O23: an aligned write stores its lanes (`busWrite_buffer`), an aligned read returns the buffer's
(`readLanes_lane`), and a misaligned access is ignored. -/
theorem bufferAccessLanes : Obligations.BufferAccessLanes := by
  intro s rest w a v base size byteOf legal idle low high buffer
  have bytes : byteOf { s with inputs := rest } = byteOf s := BufferAt.byteOf_withInputs buffer rest
  have buffer : BufferAt { s with inputs := rest } base size byteOf := buffer
  have legal : (State.params { s with inputs := rest }).legal = true := legal
  have idle : State.busy { s with inputs := rest } = false := idle
  have window : 0x1000 ≤ a.toNat := buffer.past_registers.trans low
  refine ⟨fun fits hi => ?_, fun fits hi => ?_, fun odd hi => ?_, fun odd hi => ?_⟩
  · obtain ⟨t, ht, frame, stored⟩ := busWrite_buffer legal buffer low high idle fits v
    rw [bytes] at stored
    exact ⟨t, by rw [step_write hi, ht], frame, stored⟩
  · refine ⟨readLanes (byteOf s) size (a.toNat - base) w.bytes, ?_, readLanes_lt _ _ _ _,
      fun j hj => readLanes_lane _ _ _ w.bytes_le hj⟩
    rw [step_read hi, busRead_buffer legal buffer low high fits, readBuffer_idle _ _ _ _ idle, bytes]
    rfl
  · rw [step_write hi, busWrite_misaligned window odd]
  · rw [step_read hi, busRead_misaligned window odd]
    rfl

/-- Settles O24: a read logs a value and may count a draw (`busRead_cases`). -/
theorem busReadsHaveNoSideEffects : Obligations.BusReadsHaveNoSideEffects := by
  intro s rest w a hi
  rw [step_read hi]
  obtain ⟨v, e | e⟩ := busRead_cases w a { s with inputs := rest } <;> rw [e]
  · exact ⟨v, s.draws, rfl⟩
  · exact ⟨v, s.draws + 1, rfl⟩

theorem legalBase_iff (base : Nat) : legalBase base = true ↔ base % 0x4000 = 0 := by simp [legalBase]

/-- Settles O26: the guard of `windowOffset` holds inside the window of a legal base and fails outside. -/
theorem windowAnswersItsAddresses : Obligations.WindowAnswersItsAddresses := by
  intro base addr legal
  refine ⟨?_, fun outside => ?_⟩
  · rintro a inside rfl
    rw [windowOffset, if_pos ⟨(legalBase_iff base).mpr legal, by omega, by omega⟩, Nat.add_sub_cancel_left]
  · rw [windowOffset, if_neg]
    rintro ⟨-, below, above⟩
    omega

end Sys2Proof.Machine
end

/-! PROOF. The statements of 30_encoding.md: decoder and encoder are inverse (O1, O2), the legal words (O3, O4), the
pre-checks (O11), and the errors of BER.DEC (O36). -/
section

namespace Sys2Proof

open Laws

/-! ### The fields of a word -/

/-- R80: a word is made of its three fields: bit `k` of it is a bit of the field that holds `k`. -/
theorem packWord_fields (w : Word) : packWord (immField w) (flField w) (opField w) = w := by
  ext k hk
  simp only [packWord, immField, flField, opField, BitVec.getElem_or, BitVec.getElem_shiftLeft,
    BitVec.getElem_setWidth, BitVec.getLsbD_extractLsb']
  rcases Nat.lt_or_ge k 8 with op | notOp
  · simp [op, show k < 16 by omega, BitVec.getLsbD_eq_getElem hk]
  · rcases Nat.lt_or_ge k 16 with fl | imm
    · simp [fl, Nat.not_lt.mpr notOp, show 8 + (k - 8) = k by omega, show k - 8 < 8 by omega,
        BitVec.getLsbD_eq_getElem hk]
    · simp [Nat.not_lt.mpr notOp, Nat.not_lt.mpr imm, show ¬ k - 8 < 8 by omega, show 16 + (k - 16) = k by omega,
        show k - 16 < 16 by omega, BitVec.getLsbD_eq_getElem hk]

/-- R80: words with the same three fields are the same word. -/
theorem word_ext_iff {v w : Word} :
    v = w ↔ opField v = opField w ∧ flField v = flField w ∧ immField v = immField w := by
  refine ⟨fun h => by simp [h], fun ⟨op, fl, imm⟩ => ?_⟩
  rw [← packWord_fields v, ← packWord_fields w, op, fl, imm]

/-! ### The rows of the opcode map -/

/-- R83: every FL and IMM bit that is 1 is one the row assigns. -/
def OpRow.Assigns (r : OpRow) (fl : BitVec 8) (imm : BitVec 16) : Prop :=
  fl &&& ~~~r.flBits = 0 ∧ imm &&& ~~~r.immBits = 0

/-- R83: a word matches a row exactly when its OP is the row's and the row assigns its other bits. -/
theorem OpRow.matches_iff (r : OpRow) (w : Word) :
    w &&& r.mask = r.fixed ↔ opField w = r.op ∧ r.Assigns (flField w) (immField w) := by
  have op : opField (w &&& r.mask) = opField w := by
    rw [OpRow.mask, opField, BitVec.extractLsb'_and]
    exact (congrArg _ (opField_packWord _ _ _)).trans BitVec.and_allOnes
  have fl : flField (w &&& r.mask) = flField w &&& ~~~r.flBits := by
    rw [OpRow.mask, flField, BitVec.extractLsb'_and]
    exact congrArg _ (flField_packWord _ _ _)
  have imm : immField (w &&& r.mask) = immField w &&& ~~~r.immBits := by
    rw [OpRow.mask, immField, BitVec.extractLsb'_and]
    exact congrArg _ (immField_packWord _ _ _)
  rw [word_ext_iff, op, fl, imm, OpRow.fixed, opField_packWord, flField_packWord, immField_packWord, OpRow.Assigns]

/-- The (match, mask) columns of the opcode table are those of the opcode map's rows. -/
theorem commandTable_eq : commandTable = opcodeMap.map (fun r => (r.fixed, r.mask)) := by decide

/-- A lookup in the opcode map finds a row of the map with the opcode it looks for. -/
theorem mem_of_opcodeMap_find {op : BitVec 8} {r : OpRow} (found : opcodeMap.find? (fun r => r.op == op) = some r) :
    r ∈ opcodeMap ∧ r.op = op :=
  ⟨List.mem_of_find?_eq_some found, by simpa using List.find?_some found⟩

/-- R82: the rows' opcodes are distinct, so the lookup of a row's opcode finds that row. -/
theorem opcodeMap_find {r : OpRow} (hr : r ∈ opcodeMap) : opcodeMap.find? (fun q => q.op == r.op) = some r := by
  have distinct : (opcodeMap.map OpRow.op).Nodup := by decide
  cases found : opcodeMap.find? (fun q => q.op == r.op) with
  | none => simpa using List.find?_eq_none.mp found r hr
  | some q =>
    obtain ⟨hq, same⟩ := mem_of_opcodeMap_find found
    rw [List.inj_on_of_nodup_map distinct hq hr same]

/-- R83, R84: a word decodes exactly when its opcode's row assigns its other bits, to the command the row builds. -/
theorem decodeWord_ok_iff {w : Word} {i : Instr} :
    decodeWord w = .ok i ↔ ∃ r, opcodeMap.find? (fun r => r.op == opField w) = some r ∧
      r.Assigns (flField w) (immField w) ∧ r.build (flField w) (immField w) = i := by
  unfold decodeWord OpRow.Assigns
  cases opcodeMap.find? (fun r => r.op == opField w) with
  | none => simp
  | some r =>
    by_cases fl : flField w &&& ~~~r.flBits = 0#8 <;> by_cases imm : immField w &&& ~~~r.immBits = 0#16 <;>
      simp [fl, imm]

/-! ### The operand fields (R86) -/

/-- A field with no assigned bit is 0. -/
theorem unassigned {n : Nat} {x : BitVec n} (h : x &&& ~~~0 = 0) : 0 = x := by simpa using h.symm

theorem flag_of_assigned : ∀ fl : BitVec 8, fl &&& ~~~0x01 = 0 → BitVec.ofNat 8 (fl.getLsbD 0).toNat = fl := by decide

theorem tl_of_assigned : ∀ fl : BitVec 8, fl &&& ~~~0x07 = 0 → BitVec.ofNat 8 (tlField fl) = fl := by decide

theorem berDecFlags_of_assigned : ∀ fl : BitVec 8, fl &&& ~~~0x1F = 0 →
    BitVec.ofNat 8 (tlField fl + 8 * (fl.getLsbD 3).toNat + 16 * (fl.getLsbD 4).toNat) = fl := by decide

theorem roles_of_assigned : ∀ fl : BitVec 8, fl &&& ~~~0x03 = 0 →
    BitVec.ofNat 8 ((fl.getLsbD 0).toNat + 2 * (fl.getLsbD 1).toNat) = fl := by decide

/-- IMM[15:8] is 0, so IMM is its low byte. -/
theorem tag_of_assigned {imm : BitVec 16} (h : imm &&& ~~~0x00FF = 0) : (imm.extractLsb' 0 8).setWidth 16 = imm := by
  have high : imm.extractLsb' 8 8 = 0 := by
    have ones : (~~~0x00FF : BitVec 16).extractLsb' 8 8 = BitVec.allOnes 8 := by decide
    have masked := congrArg (BitVec.extractLsb' 8 8) h
    rwa [BitVec.extractLsb'_and, ones, BitVec.and_allOnes] at masked
  have highNat := congrArg BitVec.toNat high
  apply BitVec.eq_of_toNat_eq
  simp only [BitVec.extractLsb'_toNat, BitVec.toNat_setWidth, Nat.shiftRight_eq_div_pow] at highNat ⊢
  have small := imm.isLt
  simp at highNat
  omega

theorem flag_toNat : ∀ b : Bool, BitVec.ofNat 8 b.toNat &&& ~~~0x01 = 0 ∧ (BitVec.ofNat 8 b.toNat).getLsbD 0 = b := by
  decide

theorem tl_of_lt : ∀ tl < 8, BitVec.ofNat 8 tl &&& ~~~0x07 = 0 ∧ tlField (BitVec.ofNat 8 tl) = tl := by decide

theorem berDecFlags_of_lt : ∀ tl < 8, ∀ e p : Bool, (Instr.berDec tl e p).fl &&& ~~~0x1F = 0 ∧
    tlField (Instr.berDec tl e p).fl = tl ∧ (Instr.berDec tl e p).fl.getLsbD 3 = e ∧
    (Instr.berDec tl e p).fl.getLsbD 4 = p := by decide

theorem tag_setWidth : ∀ tag : Byte,
    tag.setWidth 16 &&& ~~~0x00FF = 0 ∧ (tag.setWidth 16).extractLsb' 0 8 = tag := by decide

theorem Role.bit_ofBit (b : Bool) : (Role.ofBit b).bit = b := by cases b <;> rfl

theorem tlField_lt (fl : BitVec 8) : tlField fl < 8 := (fl.extractLsb' 0 3).isLt

/-! ### From the bits a row assigns to the command and back -/

/-- R86: a row's command is well formed, has the row's OP, and keeps every bit the row assigns. -/
def OpRow.Lossless (r : OpRow) : Prop :=
  ∀ fl imm, r.Assigns fl imm → (r.build fl imm).wf = true ∧ (r.build fl imm).op = r.op ∧
    (r.build fl imm).fl = fl ∧ (r.build fl imm).imm = imm

/-- A row that assigns no bit. -/
theorem lossless_const {i : Instr} (wf : i.wf = true) (fl : i.fl = 0) (imm : i.imm = 0) :
    (OpRow.mk i.op 0 0 fun _ _ => i).Lossless :=
  fun _ _ h => ⟨wf, rfl, fl.trans (unassigned h.1), imm.trans (unassigned h.2)⟩

/-- A row that assigns FL[0]. -/
theorem lossless_flag {op : BitVec 8} {build : Bool → Instr} (wf : ∀ b, (build b).wf = true)
    (hop : ∀ b, (build b).op = op) (fl : ∀ b, (build b).fl = BitVec.ofNat 8 b.toNat) (imm : ∀ b, (build b).imm = 0) :
    (OpRow.mk op 1 0 fun fl _ => build (fl.getLsbD 0)).Lossless :=
  fun _ _ h => ⟨wf _, hop _, (fl _).trans (flag_of_assigned _ h.1), (imm _).trans (unassigned h.2)⟩

theorem lossless_rowsCrc : ∀ r ∈ rowsCrc, r.Lossless := by
  simp only [rowsCrc, List.forall_mem_cons]
  refine ⟨?nop, ?hcs, ?fcs, by simp⟩
  case nop => exact lossless_const (i := .nop) rfl rfl rfl
  case hcs => exact lossless_flag (build := .crcHcs) (fun _ => rfl) (fun _ => rfl) (fun _ => rfl) (fun _ => rfl)
  case fcs => exact lossless_flag (build := .crcFcs) (fun _ => rfl) (fun _ => rfl) (fun _ => rfl) (fun _ => rfl)

theorem lossless_rowsBer : ∀ r ∈ rowsBer, r.Lossless := by
  simp only [rowsBer, List.forall_mem_cons]
  refine ⟨?enc, ?dec, by simp⟩
  case enc =>
    exact fun fl _ h => ⟨decide_eq_true (tlField_lt fl), rfl, tl_of_assigned fl h.1, unassigned h.2⟩
  case dec =>
    exact fun fl _ h => ⟨decide_eq_true (tlField_lt fl), rfl, berDecFlags_of_assigned fl h.1, unassigned h.2⟩

theorem lossless_rowsAxdr : ∀ r ∈ rowsAxdr, r.Lossless := by
  simp only [rowsAxdr, List.forall_mem_cons]
  refine ⟨?lenenc, ?lendec, ?enc, ?dec, ?skip, ?opt, ?fixed, ?var, ?peek, by simp⟩
  case lenenc => exact lossless_const (i := .axLenenc) rfl rfl rfl
  case lendec => exact lossless_const (i := .axLendec) rfl rfl rfl
  case enc => exact fun _ _ h => ⟨rfl, rfl, unassigned h.1, tag_of_assigned h.2⟩
  case dec => exact fun fl _ h => ⟨rfl, rfl, flag_of_assigned fl h.1, tag_of_assigned h.2⟩
  case skip => exact lossless_const (i := .axSkip) rfl rfl rfl
  case opt => exact lossless_const (i := .axOpt) rfl rfl rfl
  case fixed =>
    exact fun _ imm h => ⟨decide_eq_true imm.isLt, rfl, unassigned h.1, BitVec.eq_of_toNat_eq (by simp [Instr.imm])⟩
  case var => exact lossless_flag (build := .axVar) (fun _ => rfl) (fun _ => rfl) (fun _ => rfl) (fun _ => rfl)
  case peek => exact lossless_const (i := .axPeek) rfl rfl rfl

theorem lossless_rowsHdlc : ∀ r ∈ rowsHdlc, r.Lossless := by
  simp only [rowsHdlc, List.forall_mem_cons]
  refine ⟨?addrenc, ?addrdec, ?fmtenc, ?fmtdec, ?ctlenc, ?ctldec, ?frmenc, ?frmdec, by simp⟩
  case addrenc => exact lossless_const (i := .hAddrenc) rfl rfl rfl
  case addrdec =>
    exact lossless_flag (build := fun b => .hAddrdec (Role.ofBit b)) (fun _ => rfl) (fun _ => rfl)
      (fun b => by rw [Instr.fl, Role.bit_ofBit]) (fun _ => rfl)
  case fmtenc => exact lossless_const (i := .hFmtenc) rfl rfl rfl
  case fmtdec => exact lossless_const (i := .hFmtdec) rfl rfl rfl
  case ctlenc => exact lossless_const (i := .hCtlenc) rfl rfl rfl
  case ctldec => exact lossless_const (i := .hCtldec) rfl rfl rfl
  case frmenc => exact lossless_const (i := .hFrmenc) rfl rfl rfl
  case frmdec =>
    intro fl _ h
    refine ⟨rfl, rfl, ?_, unassigned h.2⟩
    rw [Instr.fl, Role.bit_ofBit, Role.bit_ofBit]
    exact roles_of_assigned fl h.1

/-- R82, R86: every row keeps all the bits it assigns. -/
theorem lossless_opcodeMap : ∀ r ∈ opcodeMap, r.Lossless := by
  simp only [opcodeMap, List.forall_mem_append]
  exact ⟨⟨⟨lossless_rowsCrc, lossless_rowsBer⟩, lossless_rowsAxdr⟩, lossless_rowsHdlc⟩

/-- R82, R86: the row of a well-formed command's opcode assigns the command's bits and reads the command from them. -/
theorem row_of_wf (i : Instr) (wf : i.wf = true) : ∃ r, opcodeMap.find? (fun r => r.op == i.op) = some r ∧
    r.Assigns i.fl i.imm ∧ r.build i.fl i.imm = i := by
  cases i with
  | nop | axLenenc | axLendec | axSkip | axOpt | axPeek | hAddrenc | hFmtenc | hFmtdec | hCtlenc | hCtldec | hFrmenc =>
    exact ⟨_, rfl, ⟨rfl, rfl⟩, rfl⟩
  | crcHcs b | crcFcs b | axVar b | hAddrdec b => cases b <;> exact ⟨_, rfl, ⟨rfl, rfl⟩, rfl⟩
  | hFrmdec dr sr => cases dr <;> cases sr <;> exact ⟨_, rfl, ⟨rfl, rfl⟩, rfl⟩
  | berEnc tl =>
    obtain ⟨assigned, htl⟩ := tl_of_lt tl (of_decide_eq_true wf)
    exact ⟨_, rfl, ⟨assigned, BitVec.zero_and⟩, congrArg Instr.berEnc htl⟩
  | berDec tl e p =>
    obtain ⟨assigned, htl, he, hp⟩ := berDecFlags_of_lt tl (of_decide_eq_true wf) e p
    exact ⟨_, rfl, ⟨assigned, BitVec.zero_and⟩, by simp only [htl, he, hp]⟩
  | axEnc tag =>
    obtain ⟨assigned, htag⟩ := tag_setWidth tag
    exact ⟨_, rfl, ⟨BitVec.zero_and, assigned⟩, congrArg Instr.axEnc htag⟩
  | axDec e tag =>
    obtain ⟨assigned, htag⟩ := tag_setWidth tag
    obtain ⟨flag, he⟩ := flag_toNat e
    exact ⟨_, rfl, ⟨flag, assigned⟩, congrArg₂ Instr.axDec he htag⟩
  | axFixed n =>
    have hn : (BitVec.ofNat 16 n).toNat = n := Nat.mod_eq_of_lt (of_decide_eq_true wf)
    exact ⟨_, rfl, ⟨BitVec.zero_and, BitVec.and_zero⟩, congrArg Instr.axFixed hn⟩

/-! ### The statements about words -/

/-- Settles O1: the fields of the command's word are the command's, and its opcode's row reads the command from them
(`row_of_wf`). -/
theorem decodeOfEncode : Obligations.DecodeOfEncode := by
  intro i wf
  rw [decodeWord_ok_iff, encode, opField_packWord, flField_packWord, immField_packWord]
  exact row_of_wf i wf

/-- Settles O2: the row the word decodes by keeps all its bits (`lossless_opcodeMap`), so the command's fields are the
word's. -/
theorem encodeOfDecode : Obligations.EncodeOfDecode := by
  intro w i hd
  obtain ⟨r, found, assigned, rfl⟩ := decodeWord_ok_iff.mp hd
  obtain ⟨hr, sameOp⟩ := mem_of_opcodeMap_find found
  obtain ⟨wf, op, fl, imm⟩ := lossless_opcodeMap r hr _ _ assigned
  refine ⟨wf, ?_⟩
  rw [encode, op, fl, imm, sameOp, packWord_fields]

/-- R83: a word decodes to the command of the row it matches. -/
theorem decodeWord_of_matches {r : OpRow} (hr : r ∈ opcodeMap) {w : Word} (h : w &&& r.mask = r.fixed) :
    ∃ i, decodeWord w = .ok i ∧ i.op = opField w := by
  obtain ⟨op, assigned⟩ := (r.matches_iff w).mp h
  obtain ⟨-, sameOp, -, -⟩ := lossless_opcodeMap r hr _ _ assigned
  exact ⟨_, decodeWord_ok_iff.mpr ⟨r, op ▸ opcodeMap_find hr, assigned, rfl⟩, sameOp.trans op.symm⟩

/-- R83: a word that decodes matches a row. -/
theorem matches_of_decodeWord {w : Word} {i : Instr} (h : decodeWord w = .ok i) :
    ∃ r ∈ opcodeMap, w &&& r.mask = r.fixed := by
  obtain ⟨r, found, assigned, -⟩ := decodeWord_ok_iff.mp h
  obtain ⟨hr, op⟩ := mem_of_opcodeMap_find found
  exact ⟨r, hr, (r.matches_iff w).mpr ⟨op.symm, assigned⟩⟩

/-- Settles O3: the table is the opcode map's (`commandTable_eq`); a word that matches a row decodes, and one that
matches none does not, so the engine's turn completes it with IllegalCommand. -/
theorem legalWordsAreTheTableRows : Obligations.LegalWordsAreTheTableRows := by
  intro w s
  rw [commandTable_eq]
  refine ⟨?_, fun illegal hp => ?_⟩
  · rintro ⟨_, row, h⟩
    obtain ⟨r, hr, rfl⟩ := List.mem_map.mp row
    obtain ⟨i, hd, hop⟩ := decodeWord_of_matches hr h
    exact ⟨i, hd, by rw [hop, opField, BitVec.setWidth_eq_extractLsb' (by omega)]⟩
  · rcases Machine.engineTurn_cases s with ⟨idle, -⟩ | ⟨v, i, hv, hd, -⟩ | ⟨v, e, hv, -, turn⟩
    · rw [idle] at hp
      cases hp
    · cases hv.symm.trans hp
      obtain ⟨r, hr, h⟩ := matches_of_decodeWord hd
      exact absurd h (illegal _ (List.mem_map_of_mem hr))
    · cases hv.symm.trans hp
      have failed := Machine.failed_failWith (.illegalCommand w.toNat) s
      have word : (Machine.CmdError.illegalCommand w.toNat).det0 = w := by simp [Machine.CmdError.det0]
      rw [word] at failed
      exact ⟨_, turn, failed⟩

/-- Settles O4: the decoder evaluates on each word. -/
theorem sampleWordsDecode : Obligations.SampleWordsDecode := by
  unfold Obligations.SampleWordsDecode
  decide

end Sys2Proof

namespace Sys2Proof.Machine

/-! ### Only the pre-checks raise RangeError -/

/-- The rule `m` does not raise RangeError. -/
structure NoRangeError {α : Type} (m : Except CmdError α) : Prop where
  ne : ∀ which cursor, m ≠ .error (.rangeError which cursor)

section NoRangeError

variable {α β : Type}

theorem NoRangeError.ok (a : α) : NoRangeError (.ok a) := ⟨nofun⟩

theorem NoRangeError.raise {e : CmdError} (h : ∀ which cursor, e ≠ .rangeError which cursor := by nofun) :
    NoRangeError (.error e : Except CmdError α) :=
  ⟨fun which cursor he => h which cursor (Except.error.inj he)⟩

theorem NoRangeError.raiseIf {p : Prop} [Decidable p] {e : CmdError}
    (h : ∀ which cursor, e ≠ .rangeError which cursor := by nofun) : NoRangeError (raiseIf p e) := by
  unfold Machine.raiseIf
  split
  · exact .raise h
  · exact .ok ()

theorem NoRangeError.need {x : List Byte} {n : Nat} : NoRangeError (need x n) := .raiseIf

/-- A rule made of two parts raises only what they raise. -/
theorem NoRangeError.bind {m : Except CmdError α} {f : α → Except CmdError β} (hm : NoRangeError m)
    (hf : ∀ a, NoRangeError (f a)) : NoRangeError (m >>= f) := by
  cases m with
  | error e => exact ⟨fun which cursor he => hm.ne which cursor (congrArg _ (Except.error.inj he))⟩
  | ok a => exact hf a

theorem NoRangeError.ite {p : Prop} [Decidable p] {m m' : Except CmdError α} (hm : NoRangeError m)
    (hm' : NoRangeError m') : NoRangeError (if p then m else m') := by
  split
  · exact hm
  · exact hm'

end NoRangeError

section Rules

variable (x : List Byte)

theorem berEncRule_noRangeError (tl : Nat) (a : Word) : NoRangeError (berEncRule tl a x) :=
  .bind .raiseIf fun _ => .bind .raiseIf fun _ => .ite (.ok _) (.bind .raiseIf fun _ => .ok _)

theorem berDecRule_noRangeError (tl : Nat) (e p : Bool) (a : Word) : NoRangeError (berDecRule tl e p a x) :=
  .bind .raiseIf fun _ => .bind .raiseIf fun _ => .bind .need fun _ => .bind .raiseIf fun _ => .bind .raiseIf fun _ =>
    .bind .raiseIf fun _ => .ok _

theorem lendec_noRangeError (k : Nat) : NoRangeError (lendec x k) :=
  .bind .need fun _ => .ite (.ok _) (.bind .raiseIf fun _ => .bind .raiseIf fun _ => .bind .need fun _ => .ok _)

theorem lendecRule_noRangeError : NoRangeError (lendecRule x) := .bind (lendec_noRangeError x 0) fun _ => .ok _

theorem encInt_noRangeError (t : Byte) (signed : Bool) (w : Nat) (a : Word) : NoRangeError (encInt t signed w a) :=
  .bind .raiseIf fun _ => .ok _

theorem encString_noRangeError (t : Byte) (a : Word) : NoRangeError (encString t a x) := .bind .need fun _ => .ok _

theorem axEncRule_noRangeError (t : Byte) (a : Word) : NoRangeError (axEncRule t a x) := by
  unfold axEncRule
  cases AxType.ofTag t with
  | none => exact .raise
  | some ty =>
    cases ty with
    | null | array | struct => exact .ok _
    | bool => exact .bind .raiseIf fun _ => .ok _
    | int8 | int16 | int32 | uint8 | uint16 | uint32 => exact encInt_noRangeError ..
    | octets | vstring => exact encString_noRangeError ..
    | datetime => exact .bind .need fun _ => .ok _

theorem intItem_noRangeError (k : Nat) (t : Byte) (signed : Bool) (w : Nat) : NoRangeError (intItem x k t signed w) :=
  .bind .need fun _ => .ok _

theorem stringItem_noRangeError (k : Nat) (t : Byte) : NoRangeError (stringItem x k t) :=
  .bind (lendec_noRangeError x _) fun _ => .bind .need fun _ => .ok _

theorem containerItem_noRangeError (k : Nat) (t : Byte) : NoRangeError (containerItem x k t) :=
  .bind (lendec_noRangeError x _) fun _ => .ok _

theorem item_noRangeError (k : Nat) : NoRangeError (item x k) := by
  refine .bind .need fun _ => ?_
  dsimp only
  cases AxType.ofTag (byteAt x k) with
  | none => exact .raise
  | some ty =>
    cases ty with
    | null => exact .ok _
    | bool | datetime => exact .bind .need fun _ => .ok _
    | int8 | int16 | int32 | uint8 | uint16 | uint32 => exact intItem_noRangeError ..
    | octets | vstring => exact stringItem_noRangeError ..
    | array | struct => exact containerItem_noRangeError ..

theorem axDecRule_noRangeError (e : Bool) (tag : Byte) : NoRangeError (axDecRule e tag x) :=
  .bind .need fun _ => .bind .raiseIf fun _ => .bind (item_noRangeError x 0) fun _ => .ok _

theorem walkItems_noRangeError (limit : Nat) : ∀ fuel n d w, NoRangeError (walkItems x limit fuel n d w) := by
  intro fuel
  induction fuel with
  | zero =>
    rintro (_ | n) d w
    · exact .ok w
    · exact .ite .raise .raise
  | succ fuel ih =>
    rintro (_ | n) d w
    · exact .ok w
    · exact .ite .raise (.bind (item_noRangeError x _) fun it =>
        .ite (.bind (ih ..) fun _ => ih ..) (.bind (.ok _) fun _ => ih ..))

theorem skipRule_noRangeError (maxdepth : Byte) : NoRangeError (skipRule maxdepth x) :=
  .bind (walkItems_noRangeError x ..) fun _ => .ok _

theorem optRule_noRangeError : NoRangeError (optRule x) := .bind .need fun _ => .bind .raiseIf fun _ => .ok _

theorem fixedRule_noRangeError (n : Nat) : NoRangeError (fixedRule n x) := .bind .need fun _ => .ok _

theorem varRule_noRangeError (t : Bool) : NoRangeError (varRule t x) :=
  .ite (.ok _) (.bind (lendec_noRangeError x 0) fun _ => .bind .need fun _ => .ok _)

theorem peekRule_noRangeError : NoRangeError (peekRule x) := .bind .need fun _ => .ok _

theorem addrbytes_noRangeError (i : Nat) (a : Word) : NoRangeError (addrbytes i a) := by
  refine .bind .raiseIf fun _ => ?_
  dsimp only
  cases Role.ofBit (a.getLsbD 16) <;> cases a.getLsbD 15 <;> cases a.getLsbD 17
  case client.false.false | server.false.false | server.true.false | server.true.true => exact .ok _
  case client.false.true | client.true.false | client.true.true | server.false.true => exact .raise

theorem addrencRule_noRangeError (a : Word) : NoRangeError (addrencRule a) :=
  .bind (addrbytes_noRangeError 0 a) fun _ => .ok _

theorem addrScan_noRangeError (k : Nat) : ∀ fuel i, NoRangeError (addrScan x k fuel i)
  | 0, _ => .ok none
  | fuel + 1, i => .ite .raise (.ite (.ok _) (addrScan_noRangeError k fuel (i + 1)))

theorem addrdec_noRangeError (k : Nat) (role : Role) : NoRangeError (addrdec x k role) := by
  refine .bind (addrScan_noRangeError x k 4 0) fun found => ?_
  cases found with
  | none => exact .raise
  | some n =>
    exact .bind .raiseIf fun _ => .bind .raiseIf fun _ => .ite (.ok _) (.ite (.ok _) (.bind .raiseIf fun _ => .ok _))

theorem addrdecRule_noRangeError (role : Role) : NoRangeError (addrdecRule role x) :=
  .bind (addrdec_noRangeError x 0 role) fun _ => .ok _

theorem fmtencRule_noRangeError (a : Word) : NoRangeError (fmtencRule a) := .bind .raiseIf fun _ => .ok _

theorem formatFields_noRangeError (f : Nat) : NoRangeError (formatFields f) := .bind .raiseIf fun _ => .ok _

theorem fmtdecRule_noRangeError : NoRangeError (fmtdecRule x) :=
  .bind .need fun _ => .bind (formatFields_noRangeError _) fun _ => .ok _

theorem ctlbyte_noRangeError (i : Nat) (c : Word) : NoRangeError (ctlbyte i c) := by
  refine .bind .raiseIf fun _ => ?_
  dsimp only
  cases FrameType.ofCode (bitsOf c 0 3) with
  | none => exact .raise
  | some ty => exact .bind .raiseIf fun _ => .ok _

theorem ctlencRule_noRangeError (a : Word) : NoRangeError (ctlencRule a) :=
  .bind (ctlbyte_noRangeError 0 a) fun _ => .ok _

theorem ctldec_noRangeError (c : Byte) : NoRangeError (ctldec c) :=
  .ite (.ok _) (.ite (.ok _) (.ite (.ok _) (.ite (.ok _) (.ite (.ok _) .raise))))

theorem ctldecRule_noRangeError : NoRangeError (ctldecRule x) :=
  .bind .need fun _ => .bind (ctldec_noRangeError _) fun _ => .ok _

theorem frameInfo_noRangeError (ty : FrameType) (c : Word) : NoRangeError (frameInfo ty c x) := by
  cases ty with
  | info | ua => exact .ok _
  | snrm | disc | rr => exact .bind .raiseIf fun _ => .ok _

theorem frmencRule_noRangeError (a b c : Word) : NoRangeError (frmencRule a b c x) :=
  .bind (addrbytes_noRangeError 0 a) fun _ => .bind (addrbytes_noRangeError 1 b) fun _ =>
    .bind (ctlbyte_noRangeError 2 c) fun _ => .bind (frameInfo_noRangeError x _ c) fun _ =>
      .bind .raiseIf fun _ => .ok _

theorem frmdecRule_noRangeError (dr sr : Role) : NoRangeError (frmdecRule dr sr x) :=
  .bind .raiseIf fun _ => .bind .raiseIf fun _ => .bind (formatFields_noRangeError _) fun _ =>
    .bind .raiseIf fun _ => .bind (addrdec_noRangeError ..) fun _ => .bind (addrdec_noRangeError ..) fun _ =>
      .bind .raiseIf fun _ => .bind .raiseIf fun _ => .ite
        (.bind .raiseIf fun _ => .bind .raiseIf fun _ => .bind (ctldec_noRangeError _) fun _ =>
          .bind .raiseIf fun _ => .ok _)
        (.bind (.ok _) fun _ => .bind .raiseIf fun _ => .bind (ctldec_noRangeError _) fun _ =>
          .bind .raiseIf fun _ => .ok _)

end Rules

/-- R85: no rule raises RangeError; only the pre-checks before it do. -/
theorem ruleOf_noRangeError (i : Instr) (s : State) : NoRangeError (ruleOf i s) := by
  cases i with
  | nop | crcHcs | crcFcs | axLenenc => exact .ok _
  | berEnc => exact berEncRule_noRangeError ..
  | berDec => exact berDecRule_noRangeError ..
  | axLendec => exact lendecRule_noRangeError ..
  | axEnc => exact axEncRule_noRangeError ..
  | axDec => exact axDecRule_noRangeError ..
  | axSkip => exact skipRule_noRangeError ..
  | axOpt => exact optRule_noRangeError ..
  | axFixed => exact fixedRule_noRangeError ..
  | axVar => exact varRule_noRangeError ..
  | axPeek => exact peekRule_noRangeError ..
  | hAddrenc => exact addrencRule_noRangeError ..
  | hAddrdec => exact addrdecRule_noRangeError ..
  | hFmtenc => exact fmtencRule_noRangeError ..
  | hFmtdec => exact fmtdecRule_noRangeError ..
  | hCtlenc => exact ctlencRule_noRangeError ..
  | hCtldec => exact ctldecRule_noRangeError ..
  | hFrmenc => exact frmencRule_noRangeError ..
  | hFrmdec => exact frmdecRule_noRangeError ..

/-! ### The pre-checks -/

/-- R240: only RangeError has the code 11. -/
theorem code_eq_range_iff (e : CmdError) : e.code = 11 ↔ ∃ which cursor, e = .rangeError which cursor := by
  cases e <;> simp [CmdError.code]

/-- A pre-check that fails completes the command with its error. -/
theorem exec_preCheck {s : State} {e : CmdError} (h : preCheck s = some e) (i : Instr) :
    ∃ t, exec i s = .next t ∧ Failed s t e.code e.det0 e.det1 :=
  ⟨_, by rw [exec_eq, runCommand, h], failed_failWith e s⟩

/-- With legal cursors no command completes with RangeError. -/
theorem exec_ecode_ne_range {i : Instr} {s t : State} (legal : LegalCursors s) (ht : exec i s = .next t) :
    t.ecode ≠ 11 := by
  rw [exec_eq] at ht
  rcases runCommand_cases (ruleOf i s) s with ⟨e, failed, -⟩ | ⟨-, e, rule, h⟩ | ⟨-, r, -, -, h⟩ | ⟨-, r, -, -, h⟩
  · rw [(preCheck_none_iff s).mpr legal] at failed
    cases failed
  · cases h.symm.trans ht
    intro code
    obtain ⟨which, cursor, rfl⟩ := (code_eq_range_iff e).mp code
    exact (ruleOf_noRangeError i s).ne which cursor rule
  · cases h.symm.trans ht
    simp [CmdError.code]
  · cases h.symm.trans ht
    simp

/-- R85: a command's input is IBUF[ICUR, IEND). -/
theorem input_getD {s : State} {k : Nat} (h : k < s.avail) : s.input.getD k 0 = s.ibufByte (s.icur.toNat + k) := by
  simp [State.input, h]

/-- Settles O11: the clauses are `preCheck`'s branches in their order; past them no rule raises RangeError
(`ruleOf_noRangeError`), and the input region is read byte by byte. -/
theorem preChecksComeFirst : Obligations.PreChecksComeFirst := by
  intro i s
  refine ⟨fun iend => ?_, fun iend icur => ?_, fun iend icur ocur => ?_, fun legal => ⟨?_, input_length s, ?_⟩⟩
  · exact exec_preCheck (e := .rangeError 1 s.iend.toNat) (if_pos iend) i
  · refine exec_preCheck (e := .rangeError 0 s.icur.toNat) ?_ i
    rw [preCheck, if_neg (by omega), if_pos icur]
  · refine exec_preCheck (e := .rangeError 2 s.ocur.toNat) ?_ i
    rw [preCheck, if_neg (by omega), if_neg (by omega), if_pos ocur]
  · exact fun t ht => exec_ecode_ne_range legal ht
  · exact fun k hk => input_getD hk

/-! ### The errors of BER.DEC -/

/-- With legal cursors a rule's error completes the command. -/
theorem exec_error {i : Instr} {s : State} {e : CmdError} (legal : LegalCursors s) (rule : ruleOf i s = .error e) :
    ∃ t, exec i s = .next t ∧ Failed s t e.code e.det0 e.det1 :=
  ⟨_, by rw [exec_eq, rule, runCommand_error legal], failed_failWith e s⟩

section BerDec

variable {tl : Nat} {e p : Bool} {a : Word} {x : List Byte}

/-- R86: the tag length is checked first. -/
theorem berDecRule_tagLength (bad : tl < 1 ∨ 4 < tl) :
    berDecRule tl e p a x = .error (.argumentError 3 (berFl tl e p)) := by
  rw [berDecRule, raiseIf_bind, if_pos bad]

/-- R122: an expected tag that does not fit TL bytes. -/
theorem berDecRule_expected (tl1 : 1 ≤ tl) (tl4 : tl ≤ 4) (he : e = true) (wide : 2 ^ (8 * tl) ≤ a.toNat) :
    berDecRule tl e p a x = .error (.argumentError 0 a.toNat) := by
  rw [berDecRule, raiseIf_bind, if_neg (by omega), raiseIf_bind, if_pos ⟨he, wide⟩]

/-- Past the checks of its operands BER.DEC needs the tag and the length byte. -/
theorem berDecRule_short (tl1 : 1 ≤ tl) (tl4 : tl ≤ 4) (fits : e = true → a.toNat < 2 ^ (8 * tl))
    (short : x.length < tl + 1) : berDecRule tl e p a x = .error (.insufficientData (tl + 1) x.length) := by
  have narrow : ¬ (e = true ∧ a.toNat ≥ 2 ^ (8 * tl)) := fun ⟨he, wide⟩ => (fits he).not_ge wide
  rw [berDecRule, raiseIf_bind, if_neg (by omega), raiseIf_bind, if_neg narrow, need_bind, if_pos short]

/-- R122: past the checks of its operands, on an input that has a tag and a length byte, BER.DEC checks the tag, then
the length. -/
theorem berDecRule_header {tag rest : List Byte} {len : Byte} (tl1 : 1 ≤ tag.length) (tl4 : tag.length ≤ 4)
    (fits : e = true → a.toNat < 2 ^ (8 * tag.length)) :
    berDecRule tag.length e p a (tag ++ [len] ++ rest) =
      if e = true ∧ fromBE tag ≠ a.toNat then .error (.unexpectedTag (fromBE tag) a.toNat)
      else if p = false ∧ rest.length ≠ len.toNat then .error (.lengthMismatch len.toNat rest.length)
      else if p = true ∧ rest.length < len.toNat then
        .error (.insufficientData (tag.length + 1 + len.toNat) (tag ++ [len] ++ rest).length)
      else .ok {
        out := rest.take len.toNat
        consumed := tag.length + 1 + len.toNat
        r0 := BitVec.ofNat 32 (fromBE tag)
        r1 := BitVec.ofNat 32 len.toNat
        r2 := BitVec.ofNat 32 tag.length } := by
  have narrow : ¬ (e = true ∧ a.toNat ≥ 2 ^ (8 * tag.length)) := fun ⟨he, wide⟩ => (fits he).not_ge wide
  have size : (tag ++ [len] ++ rest).length = tag.length + 1 + rest.length := by simp; omega
  have tagPart : bytesAt (tag ++ [len] ++ rest) 0 tag.length = tag := by simp [bytesAt]
  have lenPart : byteAt (tag ++ [len] ++ rest) tag.length = len := by simp [byteAt]
  have dataPart : bytesAt (tag ++ [len] ++ rest) (tag.length + 1) len.toNat = rest.take len.toNat := by simp [bytesAt]
  have remaining : (tag ++ [len] ++ rest).length - tag.length - 1 = rest.length := by omega
  rw [berDecRule, raiseIf_bind, if_neg (by omega), raiseIf_bind, if_neg narrow, need_bind, if_neg (by omega)]
  simp only [raiseIf_bind, tagPart, lenPart, dataPart, remaining]

end BerDec

/-- Settles O36: each clause is a check of the rule that fails after those before it pass. -/
theorem berDecErrors : Obligations.BerDecErrors := by
  intro s tl e p legal _
  have fail {err : CmdError} (rule : berDecRule tl e p s.arg0 s.input = .error err) :
      ∃ t, exec (.berDec tl e p) s = .next t ∧ Failed s t err.code err.det0 err.det1 := exec_error legal rule
  refine ⟨fun bad => ?_, fun tl1 tl4 => ⟨fun he wide => fail (berDecRule_expected tl1 tl4 he wide), fun fits =>
    ⟨fun short => fail (berDecRule_short tl1 tl4 fits short), ?_⟩⟩⟩
  · have flags : tl + (if e then 8 else 0) + (if p then 16 else 0) = berFl tl e p := by
      cases e <;> cases p <;> rfl
    rw [flags]
    exact fail (berDecRule_tagLength bad)
  · rintro tag rest len rfl input
    have checks := berDecRule_header (p := p) (rest := rest) (len := len) tl1 tl4 fits
    rw [← input] at checks
    refine ⟨fun he wrong => fail (checks.trans (if_pos ⟨he, wrong⟩)), fun right => ?_⟩
    rw [if_neg fun ⟨he, wrong⟩ => wrong (right he)] at checks
    refine ⟨fun strict misfit => fail (checks.trans (if_pos ⟨strict, misfit⟩)), fun pref cut => ?_⟩
    rw [if_neg (by simp [pref]), if_pos ⟨pref, cut⟩] at checks
    exact fail checks

end Sys2Proof.Machine
end

/-! PROOF. The statements of 40_crc.md: the two CRC commands (O29), the table-driven CRC as the reflected one (O31), its
residue (O32), and its detection of flipped bits (O33). The reflected register is the model's register with its bits in
reverse order (`reflectedByte_reverse`); a byte is eight bit steps, each of them linear and injective. -/
section

namespace Sys2Proof.Machine

/-! ### A word as its two bytes -/

/-- The 16-bit word with these two bytes. -/
def word16 (hi lo : Byte) : BitVec 16 := hi ++ lo

theorem word16_extract (w : BitVec 16) : word16 (w.extractLsb' 8 8) (w.extractLsb' 0 8) = w :=
  BitVec.extractLsb'_append_extractLsb' (w := 8) (len := 8)

@[simp] theorem extract_hi_word16 (hi lo : Byte) : (word16 hi lo).extractLsb' 8 8 = hi :=
  BitVec.extractLsb'_append_eq_left

@[simp] theorem extract_lo_word16 (hi lo : Byte) : (word16 hi lo).extractLsb' 0 8 = lo :=
  BitVec.extractLsb'_append_eq_right

theorem getLsbD_word16 (hi lo : Byte) (k : Nat) :
    (word16 hi lo).getLsbD k = if k < 8 then lo.getLsbD k else hi.getLsbD (k - 8) :=
  BitVec.getLsbD_append

theorem word16_xor (a b c d : Byte) : word16 a b ^^^ word16 c d = word16 (a ^^^ c) (b ^^^ d) := BitVec.xor_append

theorem reverse_word16 (hi lo : Byte) : (word16 hi lo).reverse = word16 lo.reverse hi.reverse := BitVec.reverse_append

theorem setWidth_eq_word16 (b : Byte) : b.setWidth 16 = word16 0 b := BitVec.setWidth_eq_append (by decide)

theorem or_eq_word16 (hi lo : Byte) : hi.setWidth 16 <<< 8 ||| lo.setWidth 16 = word16 hi lo := by
  rw [← BitVec.setWidth_append_eq_shiftLeft_setWidth_or, BitVec.setWidth_eq, word16]

theorem word16_ushiftRight (hi lo : Byte) : word16 hi lo >>> 8 = word16 0 hi := by
  refine BitVec.eq_of_getLsbD_eq fun k hk => ?_
  rw [BitVec.getLsbD_ushiftRight, getLsbD_word16, getLsbD_word16]
  rcases Nat.lt_or_ge k 8 with low | high
  · simp [low]
  · rw [if_neg (by omega), if_neg (by omega), BitVec.getLsbD_of_ge hi _ (by omega)]
    simp

theorem word16_shiftLeft (hi lo : Byte) : word16 hi lo <<< 8 = word16 lo 0 := by
  refine BitVec.eq_of_getLsbD_eq fun k hk => ?_
  rw [BitVec.getLsbD_shiftLeft, getLsbD_word16, getLsbD_word16]
  rcases Nat.lt_or_ge k 8 with low | high
  · simp [low]
  · simp [hk, Nat.not_lt.mpr high, show k - 8 < 8 by omega]

/-! ### Reversing the bits -/

theorem reverse_xor {w : Nat} (x y : BitVec w) : (x ^^^ y).reverse = x.reverse ^^^ y.reverse :=
  BitVec.eq_of_getLsbD_eq fun k hk => by simp only [BitVec.getLsbD_reverse, BitVec.getLsbD_xor, BitVec.getMsbD_xor]

/-- Reversed, a shift to the left is a shift to the right. -/
theorem reverse_shiftLeft {w : Nat} (x : BitVec w) (n : Nat) : (x <<< n).reverse = x.reverse >>> n :=
  BitVec.eq_of_getLsbD_eq fun k hk => by
    rw [BitVec.getLsbD_reverse, BitVec.getMsbD_shiftLeft, BitVec.getLsbD_ushiftRight, BitVec.getLsbD_reverse,
      Nat.add_comm]

/-- R7: `rev8` reverses the bits of its byte. -/
theorem rev8_eq_reverse : ∀ b : Byte, rev8 b = b.reverse := by decide

/-! ### One bit step of the reflected CRC -/

/-- The reflected bit step is the bit step of R101 on the reversed register. -/
theorem reverse_crcShift : Function.Semiconj BitVec.reverse crcShift reflectedShift := by
  intro c
  have poly : crcPoly.reverse = 0x8408#16 := by decide
  have top : c.reverse.getLsbD 0 = c.getLsbD 15 := BitVec.getLsbD_reverse
  simp only [crcShift, reflectedShift, top]
  split
  · rw [reverse_xor, reverse_shiftLeft, poly]
  · rw [reverse_shiftLeft]

/-- The bit step is linear: by what falls out of each of the two registers. -/
theorem reflectedShift_xor : Function.Semiconj₂ reflectedShift (· ^^^ ·) (· ^^^ ·) := by
  intro v w
  simp only [reflectedShift, BitVec.getLsbD_xor, BitVec.ushiftRight_xor_distrib]
  cases v.getLsbD 0 <;> cases w.getLsbD 0 <;> simp only [Bool.xor_true, Bool.xor_false, Bool.not_true, Bool.not_false,
    Bool.false_eq_true, if_true, if_false]
  · exact BitVec.xor_assoc ..
  · ac_rfl
  · simp [BitVec.xor_assoc]

/-- The bit that falls out is the new top bit, because 0x8408 has its top bit set. -/
theorem reflectedShift_getLsbD_top (v : BitVec 16) : (reflectedShift v).getLsbD 15 = v.getLsbD 0 := by
  cases out : v.getLsbD 0 <;> simp [reflectedShift, out, -BitVec.getLsbD_eq_getElem]

/-- The new register tells which bit fell out, hence what the shifted register was. -/
theorem reflectedShift_injective : Function.Injective reflectedShift := by
  intro v w same
  have out : v.getLsbD 0 = w.getLsbD 0 := by rw [← reflectedShift_getLsbD_top, same, reflectedShift_getLsbD_top]
  have rest : v >>> 1 = w >>> 1 := by
    simp only [reflectedShift, out] at same
    split at same
    · exact (BitVec.xor_left_inj _).mp same
    · exact same
  refine BitVec.eq_of_getLsbD_eq fun k hk => ?_
  cases k with
  | zero => exact out
  | succ k => simpa [Nat.add_comm] using congrArg (·.getLsbD k) rest

/-- While only zeros fall out, the bit steps are shifts. -/
theorem reflectedShift_iterate_of_zeros {v : BitVec 16} {n : Nat} (zeros : ∀ k < n, v.getLsbD k = false) :
    reflectedShift^[n] v = v >>> n := by
  induction n with
  | zero => simp
  | succ n ih =>
    have out : (v >>> n).getLsbD 0 = false := by simpa using zeros n (by omega)
    rw [Function.iterate_succ_apply', ih fun k hk => zeros k (by omega), reflectedShift, out, BitVec.shiftRight_add]
    rfl

theorem reflectedShift_iterate_high (b : Byte) : reflectedShift^[8] (word16 b 0) = word16 0 b := by
  rw [reflectedShift_iterate_of_zeros, word16_ushiftRight]
  intro k hk
  simp [getLsbD_word16, hk, -BitVec.getLsbD_eq_getElem]

/-! ### One byte -/

theorem reflectedByte_eq (v : BitVec 16) (b : Byte) : reflectedByte v b = reflectedShift^[8] (v ^^^ b.setWidth 16) :=
  rfl

theorem crcEntry_eq (b : Byte) : crcEntry b = crcShift^[8] (b.setWidth 16 <<< 8) := rfl

/-- The reflected CRC by a table: the high byte moves down, and the low byte and the input choose the entry. -/
theorem reflectedByte_word16 (hi lo b : Byte) :
    reflectedByte (word16 hi lo) b = word16 0 hi ^^^ reflectedShift^[8] (word16 0 (lo ^^^ b)) := by
  have parts : word16 hi lo ^^^ b.setWidth 16 = word16 hi 0 ^^^ word16 0 (lo ^^^ b) := by
    simp [setWidth_eq_word16, word16_xor]
  rw [reflectedByte_eq, parts, (reflectedShift_xor.iterate 8).eq, reflectedShift_iterate_high]

theorem reflectedByte_inj {v w : BitVec 16} {b c : Byte} :
    reflectedByte v b = reflectedByte w c ↔ v ^^^ b.setWidth 16 = w ^^^ c.setWidth 16 :=
  (reflectedShift_injective.iterate 8).eq_iff

theorem reverse_crcEntry (b : Byte) : (crcEntry b).reverse = reflectedShift^[8] (word16 0 b.reverse) := by
  rw [crcEntry_eq, (reverse_crcShift.iterate_right 8).eq, setWidth_eq_word16, word16_shiftLeft, reverse_word16]
  rfl

/-- The byte step of R102 is that of the reflected CRC on the reversed register. -/
theorem reflectedByte_reverse (r : BitVec 16) (b : Byte) : reflectedByte r.reverse b = (crcStep r b).reverse := by
  rw [← word16_extract r, crcStep, reverse_xor, reverse_crcEntry, word16_shiftLeft, reverse_word16, reverse_word16,
    reflectedByte_word16, extract_hi_word16, reverse_xor, rev8_eq_reverse, BitVec.reverse_reverse_eq]
  rfl

/-! ### The table-driven CRC and the reflected one -/

theorem foldl_reflectedByte_reverse (x : List Byte) (r : BitVec 16) :
    x.foldl reflectedByte r.reverse = (x.foldl crcStep r).reverse :=
  List.foldl_hom BitVec.reverse reflectedByte_reverse

/-- R102: W has the two bytes of the reflected CRC in the other order. -/
theorem crcW_eq (x : List Byte) :
    crcW x = word16 ((reflectedCrc x).extractLsb' 0 8) ((reflectedCrc x).extractLsb' 8 8) := by
  have register : x.foldl reflectedByte 0xFFFF#16 = (x.foldl crcStep crcInit).reverse :=
    foldl_reflectedByte_reverse x crcInit
  have ones : 0xFFFF#16 = word16 0xFF 0xFF := rfl
  rw [crcW, reflectedCrc, register, or_eq_word16, rev8_eq_reverse, rev8_eq_reverse,
    ← word16_extract (x.foldl crcStep crcInit), reverse_word16]
  simp [ones, word16_xor]

/-- Settles O31: `crc16` takes the two bytes of W, which are those of the reflected CRC (`crcW_eq`). -/
theorem crcIsTheReflectedCrc : Obligations.CrcIsTheReflectedCrc := by
  intro x
  simp [crc16, crcW_eq]

/-! ### The commands -/

theorem fromBE_pair (a b : Byte) : fromBE [a, b] = (a ++ b).toNat := by
  rw [toNat_append_eq_add]
  simp [fromBE, Nat.mul_comm]

/-- R103, R104, R105: the rule's result, from the two bytes of W. -/
theorem crcRule_eq (l : Bool) (s : State) :
    let hi := (crcW s.input).extractLsb' 8 8
    let lo := (crcW s.input).extractLsb' 0 8
    crcRule l s.input = .ok { out := if l then [lo, hi] else [hi, lo], consumed := s.avail
                              r0 := if l then (lo ++ hi).setWidth 32 else (hi ++ lo).setWidth 32 } := by
  simp only [crcRule, crc16, input_length]
  cases l <;> simp [fromBE_pair]

/-- With legal cursors a command whose rule gives `r` commits it, or overflows (R38, R244). -/
theorem exec_gives {i : Instr} {s : State} {r : Result} (legal : LegalCursors s) (rule : ruleOf i s = .ok r) :
    Gives i s r := by
  refine ⟨fun fits => ⟨_, ?_, committed_commit r s⟩,
    fun long => ⟨_, ?_, failed_failWith (.outputOverflow r.out.length s.room) s⟩⟩
  · rw [exec_eq, rule, runCommand_ok legal fits]
  · rw [exec_eq, rule, runCommand_overflow legal long]

/-- Settles O29: both commands run `crcRule`. -/
theorem crcCommandsGiveTheCrc : Obligations.CrcCommandsGiveTheCrc :=
  fun s l legal => ⟨exec_gives legal (crcRule_eq l s), exec_gives legal (crcRule_eq l s)⟩

/-! ### The residue -/

/-- The complement of the register's low byte, then of its high byte, leaves a register that does not depend on it. -/
theorem reflectedByte_own_complement (v : BitVec 16) :
    reflectedByte (reflectedByte v (v.extractLsb' 0 8 ^^^ 0xFF)) (v.extractLsb' 8 8 ^^^ 0xFF) = 0xF0B8 := by
  obtain ⟨hi, lo, rfl⟩ : ∃ hi lo, v = word16 hi lo := ⟨_, _, (word16_extract v).symm⟩
  have first : reflectedByte (word16 hi lo) (lo ^^^ 0xFF) = word16 0x0F (hi ^^^ 0x78) := by
    have entry : reflectedShift^[8] (word16 0 0xFF) = word16 0x0F 0x78 := by decide
    rw [reflectedByte_word16, ← BitVec.xor_assoc, BitVec.xor_self, BitVec.zero_xor, entry, word16_xor]
    simp
  have second : hi ^^^ 0x78 ^^^ (hi ^^^ 0xFF) = 0x87 := by
    simp [BitVec.xor_comm hi, BitVec.xor_assoc]
  rw [extract_lo_word16, extract_hi_word16, first, reflectedByte_word16, second]
  decide

/-- R103: for L = 0 the complements of the reflected register's bytes, the low byte first. -/
theorem crc16_false_eq (x : List Byte) :
    crc16 x false = [(x.foldl reflectedByte 0xFFFF).extractLsb' 0 8 ^^^ 0xFF,
      (x.foldl reflectedByte 0xFFFF).extractLsb' 8 8 ^^^ 0xFF] := by
  rw [(crcIsTheReflectedCrc x).1, reflectedCrc, BitVec.extractLsb'_xor, BitVec.extractLsb'_xor]
  rfl

/-- Settles O32: the check sequence is the complement of the register that meets it. -/
theorem crcResidueIsConstant : Obligations.CrcResidueIsConstant := by
  intro x
  have residue : reflectedCrc (x ++ crc16 x false) = 0x0F47 := by
    rw [crc16_false_eq, reflectedCrc, List.foldl_append]
    exact congrArg (· ^^^ 0xFFFF#16) (reflectedByte_own_complement _)
  rw [crcW_eq, residue]
  rfl

/-! ### Flipped bits -/

theorem foldl_reflectedByte_injective (x : List Byte) : Function.Injective (x.foldl reflectedByte) := by
  induction x with
  | nil => exact Function.injective_id
  | cons b x ih => exact fun _ _ same => (BitVec.xor_left_inj _).mp (reflectedByte_inj.mp (ih same))

/-- Two lists that differ in one byte only have different CRCs. -/
theorem reflectedCrc_set_inj {x : List Byte} {k : Nat} (hk : k < x.length) {b c : Byte}
    (same : reflectedCrc (x.set k b) = reflectedCrc (x.set k c)) : b = c := by
  simp only [reflectedCrc, List.set_eq_take_cons_drop _ hk, List.foldl_append, List.foldl_cons,
    BitVec.xor_left_inj] at same
  have bytes := foldl_reflectedByte_injective _ same
  rw [reflectedByte_inj, BitVec.xor_right_inj, setWidth_eq_word16, setWidth_eq_word16] at bytes
  rw [← extract_lo_word16 0 b, bytes, extract_lo_word16]

@[simp] theorem crc16_length (x : List Byte) (l : Bool) : (crc16 x l).length = 2 := by cases l <;> rfl

/-- In either order the two bytes determine the CRC. -/
theorem crc16_inj {x y : List Byte} {l : Bool} (same : crc16 x l = crc16 y l) : reflectedCrc x = reflectedCrc y := by
  rw [← word16_extract (reflectedCrc x), ← word16_extract (reflectedCrc y)]
  cases l with
  | false =>
    rw [(crcIsTheReflectedCrc x).1, (crcIsTheReflectedCrc y).1] at same
    injection same with lo rest
    injection rest with hi
    rw [lo, hi]
  | true =>
    rw [(crcIsTheReflectedCrc x).2, (crcIsTheReflectedCrc y).2] at same
    injection same with hi rest
    injection rest with lo
    rw [lo, hi]

theorem flipped_ne {i : Nat} (hi : i < 8) (b : Byte) : b ^^^ (1#8 <<< i) ≠ b := by
  intro same
  have bit := congrArg (·.getLsbD i) same
  simp [hi] at bit

/-- Settles O33: a changed byte of the list changes the CRC (`reflectedCrc_set_inj`), hence its two bytes. -/
theorem crcDetectsEveryFlippedBit : Obligations.CrcDetectsEveryFlippedBit := by
  intro x l i hi
  refine ⟨fun k hk same => ?_, fun k hk same => ?_⟩
  · rw [List.getD_eq_getElem x 0 hk] at same
    have crc : reflectedCrc (x.set k (x[k] ^^^ 1#8 <<< i)) = reflectedCrc (x.set k x[k]) := by
      rw [List.set_getElem_self]
      exact crc16_inj same
    exact flipped_ne hi _ (reflectedCrc_set_inj hk crc)
  · have inside : k < (crc16 x l).length := by rwa [crc16_length]
    have byte := congrArg (·.getD k 0) same
    rw [List.getD_eq_getElem _ 0 (by rwa [List.length_set]), List.getElem_set_self] at byte
    exact flipped_ne hi _ byte

end Sys2Proof.Machine
end

/-! PROOF. The statements of 41_ber.md: the element that BER.ENC makes (O34), the elements that BER.DEC reads (O35), and
the round trip (O37). An element's tag is determined by its length and its value (`fromBE_inj`). -/
section

namespace Sys2Proof.Machine

/-! ### The big-endian form of a value -/

/-- The top digit, base 256, is the first byte. -/
theorem fromBE_cons_div (b : Byte) (x : List Byte) : fromBE (b :: x) / 256 ^ x.length = b.toNat := by
  rw [fromBE_cons, Nat.mul_comm, Nat.mul_add_div (Nat.pow_pos (by decide)), Nat.div_eq_of_lt (fromBE_lt x),
    Nat.add_zero]

/-- R7: byte lists of one length with the same big-endian value are the same list. -/
theorem fromBE_inj {x y : List Byte} (len : x.length = y.length) (same : fromBE x = fromBE y) : x = y := by
  induction x generalizing y with
  | nil => exact (List.length_eq_zero_iff.mp len.symm).symm
  | cons b x ih =>
    cases y with
    | nil => cases len
    | cons c y =>
      have lens : x.length = y.length := Nat.succ.inj len
      have first : b.toNat = c.toNat := by rw [← fromBE_cons_div b x, same, lens, fromBE_cons_div]
      rw [fromBE_cons, fromBE_cons, first, lens] at same
      rw [BitVec.eq_of_toNat_eq first, ih lens (Nat.add_left_cancel same)]

/-- A value that fits n bytes is the value of its n bytes. -/
theorem fromBE_beBytes_of_lt {n v : Nat} (fits : v < 2 ^ (8 * n)) : fromBE (beBytes n v) = v := by
  rw [fromBE_beBytes, Nat.mod_eq_of_lt]
  rwa [Nat.pow_mul] at fits

/-- The bytes of a list's value are that list. -/
theorem beBytes_fromBE (x : List Byte) : beBytes x.length (fromBE x) = x := by
  refine fromBE_inj (beBytes_length _ _) ?_
  rw [fromBE_beBytes, Nat.mod_eq_of_lt (fromBE_lt x)]

theorem fromBE_lt_two_pow (x : List Byte) : fromBE x < 2 ^ (8 * x.length) := by
  rw [Nat.pow_mul]
  exact fromBE_lt x

/-! ### BER.ENC -/

section BerEnc

variable {tl : Nat} {a : Word} {x : List Byte}

/-- R86: the tag length is checked first. -/
theorem berEncRule_tagLength (bad : tl < 1 ∨ 4 < tl) :
    berEncRule tl a x = .error (.argumentError 3 (berFl tl false false)) := by
  rw [berEncRule, raiseIf_bind, if_pos bad]

/-- R121: a tag that does not fit TL bytes. -/
theorem berEncRule_wide (tl1 : 1 ≤ tl) (tl4 : tl ≤ 4) (wide : 2 ^ (8 * tl) ≤ a.toNat) :
    berEncRule tl a x = .error (.argumentError 0 a.toNat) := by
  rw [berEncRule, raiseIf_bind, if_neg (by omega), raiseIf_bind, if_pos wide]

/-- R121: past the checks of its operands BER.ENC looks at the input's length only. -/
theorem berEncRule_checked (tl1 : 1 ≤ tl) (tl4 : tl ≤ 4) (fits : a.toNat < 2 ^ (8 * tl)) :
    berEncRule tl a x =
      if x.length = 0 then .ok {}
      else if 255 < x.length then .error (.lengthOverflow x.length 255)
      else .ok {
        out := beBytes tl a.toNat ++ [BitVec.ofNat 8 x.length] ++ x
        consumed := x.length
        r0 := BitVec.ofNat 32 x.length } := by
  rw [berEncRule, raiseIf_bind, if_neg (by omega), raiseIf_bind, if_neg fits.not_ge, raiseIf_bind]

/-- R121: empty data gives an empty output. -/
theorem berEncRule_nil (tl1 : 1 ≤ tl) (tl4 : tl ≤ 4) (fits : a.toNat < 2 ^ (8 * tl)) :
    berEncRule tl a [] = .ok {} := berEncRule_checked tl1 tl4 fits

/-- R121: the length byte counts up to 255 bytes. -/
theorem berEncRule_long (tl1 : 1 ≤ tl) (tl4 : tl ≤ 4) (fits : a.toNat < 2 ^ (8 * tl)) (long : 255 < x.length) :
    berEncRule tl a x = .error (.lengthOverflow x.length 255) := by
  rw [berEncRule_checked tl1 tl4 fits, if_neg (by omega), if_pos long]

/-- R121: the element that BER.ENC makes of 1 to 255 bytes. -/
theorem berEncRule_element (tl1 : 1 ≤ tl) (tl4 : tl ≤ 4) (fits : a.toNat < 2 ^ (8 * tl)) (nonempty : x ≠ [])
    (short : x.length ≤ 255) :
    berEncRule tl a x = .ok {
      out := beBytes tl a.toNat ++ [BitVec.ofNat 8 x.length] ++ x
      consumed := x.length
      r0 := BitVec.ofNat 32 x.length } := by
  rw [berEncRule_checked tl1 tl4 fits, if_neg (mt List.length_eq_zero_iff.mp nonempty), if_neg short.not_gt]

end BerEnc

/-- Settles O34: each clause is a branch of the rule; the emitted tag is the one list of TL bytes with its value. -/
theorem berEncWrapsTheInput : Obligations.BerEncWrapsTheInput := by
  intro s tl legal _
  have fail {err : CmdError} (rule : berEncRule tl s.arg0 s.input = .error err) :
      ∃ t, exec (.berEnc tl) s = .next t ∧ Failed s t err.code err.det0 err.det1 := exec_error legal rule
  refine ⟨fun bad => fail (berEncRule_tagLength bad), fun tl1 tl4 wide => fail (berEncRule_wide tl1 tl4 wide),
    fun tl1 tl4 fits empty => ?_, fun tl1 tl4 fits nonempty short tag width value => ?_,
    fun tl1 tl4 fits long => fail (berEncRule_long tl1 tl4 fits long)⟩
  · have rule : ruleOf (.berEnc tl) s = .ok {} := by rw [ruleOf, empty, berEncRule_nil tl1 tl4 fits]
    exact (exec_gives legal rule).1 (Nat.zero_le _)
  · have bytes : beBytes tl s.arg0.toNat = tag := by rw [← width, ← value, beBytes_fromBE]
    rw [← bytes]
    exact exec_gives legal (berEncRule_element tl1 tl4 fits nonempty short)

/-! ### BER.DEC -/

/-- R122: an element passes every check: with P = 0 it is the whole input, with P = 1 more may follow. -/
theorem berDecRule_element {e p : Bool} {a : Word} {tag data rest : List Byte} (tl1 : 1 ≤ tag.length)
    (tl4 : tag.length ≤ 4) (short : data.length ≤ 255) (strict : p = false → rest = [])
    (expected : e = true → a.toNat = fromBE tag) :
    berDecRule tag.length e p a (tag ++ [BitVec.ofNat 8 data.length] ++ data ++ rest) = .ok {
      out := data
      consumed := tag.length + 1 + data.length
      r0 := BitVec.ofNat 32 (fromBE tag)
      r1 := BitVec.ofNat 32 data.length
      r2 := BitVec.ofNat 32 tag.length } := by
  have fits (he : e = true) : a.toNat < 2 ^ (8 * tag.length) := expected he ▸ fromBE_lt_two_pow tag
  have len : (BitVec.ofNat 8 data.length).toNat = data.length := Nat.mod_eq_of_lt (by omega)
  have right : ¬ (e = true ∧ fromBE tag ≠ a.toNat) := fun ⟨he, wrong⟩ => wrong (expected he).symm
  have filled : ¬ (p = false ∧ (data ++ rest).length ≠ data.length) :=
    fun ⟨hp, misfit⟩ => misfit (by simp [strict hp])
  have present : ¬ (p = true ∧ (data ++ rest).length < data.length) := by simp
  rw [List.append_assoc _ data rest, berDecRule_header tl1 tl4 fits, len, if_neg right, if_neg filled, if_neg present,
    List.take_left]

/-- Settles O35: the rule accepts every element (`berDecRule_element`), so the command gives its result. -/
theorem berDecReadsAnElement : Obligations.BerDecReadsAnElement := by
  rintro s tl e p tag data rest legal tl1 tl4 rfl short input strict expected
  have rule := berDecRule_element tl1 tl4 short strict expected
  rw [← input] at rule
  exact exec_gives legal rule

/-! ### The round trip -/

/-- Settles O37: BER.ENC makes an element whose tag has the value `t`, and BER.DEC reads any element. -/
theorem berRoundTrip : Obligations.BerRoundTrip := by
  refine fun tl t d e tl1 tl4 fits => ⟨fun nonempty short => ?_, {}, berEncRule_nil tl1 tl4 fits, rfl⟩
  have width : (beBytes tl t.toNat).length = tl := beBytes_length _ _
  have value : fromBE (beBytes tl t.toNat) = t.toNat := fromBE_beBytes_of_lt fits
  have decoded := berDecRule_element (e := e) (p := false) (a := t) (tag := beBytes tl t.toNat) (data := d) (rest := [])
    (by rwa [width]) (by rwa [width]) short (fun _ => rfl) (fun _ => value.symm)
  rw [List.append_nil, width, value] at decoded
  exact ⟨_, _, berEncRule_element tl1 tl4 fits (List.ne_nil_of_length_pos nonempty) short, decoded, rfl, by simp,
    rfl⟩

end Sys2Proof.Machine
end

/-! PROOF. The statements of 42_axdr.md: lengths (O38, O39), AX.OPT to AX.PEEK (O47), the item parser and
AX.DEC (O42, O43), AX.ENC and the round trip (O40, O41, O44), and the tree walk (O45, O46). A parser reads the bytes
that remain from an offset on (`Remaining`): a well-formed form is read whole, and a fault is the error it raises. -/
section

namespace Sys2Proof.Machine

/-! ### Commands whose rule raises an error -/

/-- The rule `m` raises an error with this code and these details (R240, R241). -/
def Raises {α : Type} (m : Except CmdError α) (code : Byte) (d0 d1 : Nat) : Prop :=
  ∃ e : CmdError, m = .error e ∧ e.code = code ∧ e.det0 = BitVec.ofNat 32 d0 ∧ e.det1 = BitVec.ofNat 32 d1

/-- An error of the first part of a rule is the rule's. -/
theorem Raises.bind {α β : Type} {m : Except CmdError α} {f : α → Except CmdError β} {code : Byte} {d0 d1 : Nat}
    (h : Raises m code d0 d1) : Raises (m >>= f) code d0 d1 := by
  obtain ⟨e, rfl, details⟩ := h
  exact ⟨e, rfl, details⟩

theorem raises_insufficientData {α : Type} (n present : Nat) :
    Raises (.error (.insufficientData n present) : Except CmdError α) 1 n present := ⟨_, rfl, rfl, rfl, rfl⟩

theorem raises_unknownEnumValue {α : Type} (v : Nat) :
    Raises (.error (.unknownEnumValue v) : Except CmdError α) 6 v 0 := ⟨_, rfl, rfl, rfl, rfl⟩

theorem raises_argumentError {α : Type} (operand value : Nat) :
    Raises (.error (.argumentError operand value) : Except CmdError α) 8 operand value := ⟨_, rfl, rfl, rfl, rfl⟩

theorem raises_depthExceeded {α : Type} (depth limit : Nat) :
    Raises (.error (.depthExceeded depth limit) : Except CmdError α) 10 depth limit := ⟨_, rfl, rfl, rfl, rfl⟩

/-- With legal cursors the error a command's rule raises completes the command (R242). -/
theorem failsWith_of_raises {i : Instr} {s : State} {code : Byte} {d0 d1 : Nat} (legal : LegalCursors s)
    (h : Raises (ruleOf i s) code d0 d1) : FailsWith i s code d0 d1 := by
  obtain ⟨e, rule, rfl, h0, h1⟩ := h
  rw [FailsWith, ← h0, ← h1]
  exact exec_error legal rule

/-! ### The bytes from an offset on -/

/-- `y` are the bytes of the input `x` from offset `k` to its end. -/
structure Remaining (x : List Byte) (k : Nat) (y : List Byte) : Prop where
  length : x.length = k + y.length
  drop   : x.drop k = y

namespace Remaining

variable {x y z : List Byte} {k n : Nat} {b : Byte}

theorem zero (x : List Byte) : Remaining x 0 x := ⟨by simp, by simp⟩

/-- What remains after the part `y`. -/
theorem after (h : Remaining x k (y ++ z)) : Remaining x (k + y.length) z where
  length := by simp [h.length, Nat.add_assoc]
  drop := by rw [← List.drop_drop, h.drop, List.drop_left]

theorem tail (h : Remaining x k (b :: z)) : Remaining x (k + 1) z := after (y := [b]) h

theorem byteAt_eq (h : Remaining x k (b :: z)) : byteAt x k = b := by
  have first : (x.drop k)[0]? = some b := by rw [h.drop]; rfl
  rw [List.getElem?_drop] at first
  simpa [byteAt] using congrArg (·.getD 0) first

theorem bytesAt_eq (h : Remaining x k (y ++ z)) : bytesAt x k y.length = y := by
  rw [bytesAt, h.drop, List.take_left]

/-- `need` passes when the bytes are there. -/
theorem need_ok {α : Type} {f : Unit → Except CmdError α} (h : Remaining x k y) (present : n ≤ y.length) :
    (need x (k + n) >>= f) = f () := by
  rw [need_bind, if_neg (by have := h.length; omega)]

/-- `need` fails when bytes are missing. -/
theorem need_short {α : Type} {f : Unit → Except CmdError α} (h : Remaining x k y) (short : y.length < n) :
    Raises (need x (k + n) >>= f) 1 (k + n) (k + y.length) := by
  have size := h.length
  rw [need_bind, if_pos (by omega), size]
  exact raises_insufficientData _ _

end Remaining

/-! ### Lengths -/

/-- R140: the first byte of a long form holds the number of length bytes, low seven bits. -/
theorem toNat_longForm {n : Nat} (h : n < 128) : (BitVec.ofNat 8 (0x80 + n)).toNat = 0x80 + n :=
  Nat.mod_eq_of_lt (by omega)

theorem low_longForm {n : Nat} (h : n < 128) : ((BitVec.ofNat 8 (0x80 + n)).extractLsb' 0 7).toNat = n := by
  rw [BitVec.extractLsb'_toNat, toNat_longForm h]
  omega

/-- R143: past the short form `lendec` looks at the number of length bytes, then at the length bytes. -/
theorem lendec_longForm {x y : List Byte} {k n : Nat} (h : Remaining x k (BitVec.ofNat 8 (0x80 + n) :: y))
    (h7 : n < 128) :
    lendec x k =
      if n = 0 then .error (.malformed 0x80)
      else if 4 < n then .error (.lengthOverflow n 4)
      else need x (k + 1 + n) >>= fun _ => .ok (fromBE (bytesAt x (k + 1) n), 1 + n) := by
  rw [lendec, h.need_ok (by simp)]
  simp only [h.byteAt_eq, toNat_longForm h7, low_longForm h7, raiseIf_bind]
  rw [if_neg (by omega)]
  split
  · simp [*]
  · rfl

/-- R143: `lendec` reads any length, of the short form or the long. -/
theorem lendec_lenPrefix {x p y : List Byte} {k v : Nat} (h : Remaining x k (p ++ y)) (hp : LenPrefix p v) :
    lendec x k = .ok (v, p.length) := by
  cases hp with
  | short v small =>
    have value : (BitVec.ofNat 8 v).toNat = v := Nat.mod_eq_of_lt (by omega)
    rw [lendec, h.need_ok (by simp)]
    simp [h.byteAt_eq, value, small]
  | long bs h1 h4 =>
    rw [lendec_longForm h (by omega), if_neg (by omega), if_neg (by omega), h.tail.need_ok (by simp),
      h.tail.bytesAt_eq, List.length_cons, Nat.add_comm]

/-- R143: the bytes `y` from offset `k` to the end of the input begin with no length: the error of `lendec`. -/
inductive LenFault (k : Nat) : (y : List Byte) → (code : Byte) → (d0 d1 : Nat) → Prop where
  | absent : LenFault k [] 1 (k + 1) k
  | malformed (cut : List Byte) : LenFault k (0x80 :: cut) 14 0x80 0
  | tooLong (n : Nat) (cut : List Byte) (h4 : 4 < n) (h7 : n < 128) :
      LenFault k (BitVec.ofNat 8 (0x80 + n) :: cut) 7 n 4
  | cut (n : Nat) (cut : List Byte) (h1 : 1 ≤ n) (h4 : n ≤ 4) (short : cut.length < n) :
      LenFault k (BitVec.ofNat 8 (0x80 + n) :: cut) 1 (k + 1 + n) (k + 1 + cut.length)

theorem lendec_fault {x y : List Byte} {k d0 d1 : Nat} {code : Byte} (h : Remaining x k y)
    (fault : LenFault k y code d0 d1) : Raises (lendec x k) code d0 d1 := by
  cases fault with
  | absent => exact h.need_short (by simp)
  | malformed cut =>
    rw [lendec_longForm (n := 0) h (by decide), if_pos rfl]
    exact ⟨_, rfl, rfl, rfl, rfl⟩
  | tooLong n cut h4 h7 =>
    rw [lendec_longForm h h7, if_neg (by omega), if_pos h4]
    exact ⟨_, rfl, rfl, rfl, rfl⟩
  | cut n cut h1 h4 short =>
    rw [lendec_longForm h (by omega), if_neg (by omega), if_neg (by omega)]
    exact h.tail.need_short short

/-- R143's four errors at the start of the input, as the obligations list them. -/
theorem lenFault_clauses {x : List Byte} {fails : Byte → Nat → Nat → Prop}
    (h : ∀ code d0 d1, LenFault 0 x code d0 d1 → fails code d0 d1) :
    (x = [] → fails 1 1 0) ∧
    (∀ rest, x = 0x80 :: rest → fails 14 0x80 0) ∧
    (∀ (n : Nat) (rest : List Byte), 4 < n → n < 128 → x = BitVec.ofNat 8 (0x80 + n) :: rest → fails 7 n 4) ∧
    (∀ (n : Nat) (rest : List Byte), 1 ≤ n → n ≤ 4 → x = BitVec.ofNat 8 (0x80 + n) :: rest → rest.length < n →
      fails 1 (1 + n) x.length) := by
  refine ⟨?_, ?_, ?_, ?_⟩
  · rintro rfl
    exact h _ _ _ .absent
  · rintro rest rfl
    exact h _ _ _ (.malformed rest)
  · rintro n rest h4 h7 rfl
    exact h _ _ _ (.tooLong n rest h4 h7)
  · rintro n rest h1 h4 rfl short
    have cut := h _ _ _ (.cut n rest h1 h4 short)
    rwa [Nat.zero_add, Nat.add_comm 1 rest.length] at cut

/-- Settles O39: `lendec` reads every length (`lendec_lenPrefix`) and raises every error (`lendec_fault`). -/
theorem axLendecReadsAPrefix : Obligations.AxLendecReadsAPrefix := by
  intro s legal
  refine ⟨fun p rest v hp input => exec_gives legal ?_, lenFault_clauses fun code d0 d1 fault =>
    failsWith_of_raises legal (lendec_fault (.zero _) fault).bind⟩
  have whole : Remaining s.input 0 (p ++ rest) := input ▸ .zero _
  rw [ruleOf, lendecRule, lendec_lenPrefix whole hp]
  rfl

/-! ### The shortest form of a length -/

/-- R7: byte `n` of a word, counted from its low end. -/
theorem ofNat_div_pow (a : Word) (n : Nat) : BitVec.ofNat 8 (a.toNat / 256 ^ n) = a.extractLsb' (8 * n) 8 := by
  rw [BitVec.extractLsb', Nat.shiftRight_eq_div_pow, Nat.pow_mul]

theorem beBytes_one (a : Word) : beBytes 1 a.toNat = [a.extractLsb' (8 * 0) 8] := by
  simp only [beBytes, ofNat_div_pow]

theorem beBytes_two (a : Word) : beBytes 2 a.toNat = [a.extractLsb' (8 * 1) 8, a.extractLsb' (8 * 0) 8] := by
  simp only [beBytes, ofNat_div_pow]

theorem beBytes_three (a : Word) :
    beBytes 3 a.toNat = [a.extractLsb' (8 * 2) 8, a.extractLsb' (8 * 1) 8, a.extractLsb' (8 * 0) 8] := by
  simp only [beBytes, ofNat_div_pow]

theorem beBytes_four (a : Word) :
    beBytes 4 a.toNat = [a.extractLsb' (8 * 3) 8, a.extractLsb' (8 * 2) 8, a.extractLsb' (8 * 1) 8,
      a.extractLsb' (8 * 0) 8] := by
  simp only [beBytes, ofNat_div_pow]

theorem lenBytes_range (v : Nat) : 1 ≤ lenBytes v ∧ lenBytes v ≤ 4 := by
  unfold lenBytes
  split_ifs <;> decide

/-- R142: the length bytes hold the value. -/
theorem lt_lenBytes {v : Nat} (word : v < 2 ^ 32) : v < 2 ^ (8 * lenBytes v) := by
  unfold lenBytes
  split_ifs <;> assumption

/-- R142: from 128 on the form is long; its first byte holds the number of length bytes. -/
theorem axlen_long {v : Nat} (long : 128 ≤ v) :
    axlen v = BitVec.ofNat 8 (0x80 + lenBytes v) :: beBytes (lenBytes v) v := by
  have first : ∀ n ≤ 4, 0x80#8 ||| BitVec.ofNat 8 n = BitVec.ofNat 8 (0x80 + n) := by decide
  rw [axlen, if_neg long.not_gt, first _ (lenBytes_range v).2]

/-- R140, R142: what AX.LENENC writes is a form of its length. -/
theorem lenPrefix_axlen {v : Nat} (word : v < 2 ^ 32) : LenPrefix (axlen v) v := by
  by_cases small : v < 128
  · rw [axlen, if_pos small]
    exact .short v small
  · have width := beBytes_length (lenBytes v) v
    have form := LenPrefix.long (beBytes (lenBytes v) v) (by rw [width]; exact (lenBytes_range v).1)
      (by rw [width]; exact (lenBytes_range v).2)
    rwa [fromBE_beBytes_of_lt (lt_lenBytes word), width, ← axlen_long (Nat.not_lt.mp small)] at form

/-- The model's form is the one R142 asks for, range by range. -/
theorem axlen_eq_minimalPrefix (a : Word) : axlen a.toNat = minimalPrefix a := by
  unfold minimalPrefix
  split_ifs with short one two three
  · have byte := ofNat_div_pow a 0
    rw [Nat.pow_zero, Nat.div_one] at byte
    rw [axlen, if_pos short, byte]
  · have bytes : lenBytes a.toNat = 1 := if_pos one
    rw [axlen_long (by omega), bytes, beBytes_one]
    rfl
  · have bytes : lenBytes a.toNat = 2 := (if_neg one).trans (if_pos two)
    rw [axlen_long (by omega), bytes, beBytes_two]
    rfl
  · have bytes : lenBytes a.toNat = 3 := (if_neg one).trans ((if_neg two).trans (if_pos three))
    rw [axlen_long (by omega), bytes, beBytes_three]
    rfl
  · have bytes : lenBytes a.toNat = 4 := (if_neg one).trans ((if_neg two).trans (if_neg three))
    rw [axlen_long (by omega), bytes, beBytes_four]
    rfl

/-- Settles O38: the rule emits `axlen`, which is the shortest form (`axlen_eq_minimalPrefix`). -/
theorem axLenencWritesTheMinimalPrefix : Obligations.AxLenencWritesTheMinimalPrefix := by
  intro s legal
  refine exec_gives legal ?_
  rw [ruleOf, lenencRule, axlen_eq_minimalPrefix]

/-! ### AX.OPT, AX.FIXED, AX.VAR and AX.PEEK -/

theorem ok_bind {α β : Type} (a : α) (f : α → Except CmdError β) : (.ok a >>= f) = f a := rfl

theorem need_fits {α : Type} {x : List Byte} {n : Nat} {f : Unit → Except CmdError α} (present : n ≤ x.length) :
    (need x n >>= f) = f () := by rw [need_bind, if_neg present.not_gt]

theorem need_raises {α : Type} {x : List Byte} {n : Nat} {f : Unit → Except CmdError α} (short : x.length < n) :
    Raises (need x n >>= f) 1 n x.length := by
  rw [need_bind, if_pos short]
  exact raises_insufficientData _ _

/-- With legal cursors a command whose rule emits nothing succeeds. -/
theorem exec_succeeds {i : Instr} {s : State} {r : Result} (legal : LegalCursors s) (rule : ruleOf i s = .ok r)
    (silent : r.out = []) : Succeeds i s r :=
  (exec_gives legal rule).1 (by simp [silent])

/-- R162: AX.OPT checks the flag byte. -/
theorem optRule_cons (b : Byte) (y : List Byte) :
    optRule (b :: y) =
      if b.toNat > 1 then .error (.unknownEnumValue b.toNat) else .ok { consumed := 1, r0 := b.setWidth 32 } := by
  rw [optRule, need_fits (by simp), byteAt_zero, raiseIf_bind]

/-- R165: AX.PEEK returns the next byte. -/
theorem peekRule_cons (b : Byte) (y : List Byte) : peekRule (b :: y) = .ok { r0 := b.setWidth 32 } := by
  rw [peekRule, need_fits (by simp), byteAt_zero]

/-- R164, T = 0: AX.VAR needs as many bytes as their length says. -/
theorem varRule_false {p y : List Byte} {len : Nat} (hp : LenPrefix p len) :
    varRule false (p ++ y) =
      need (p ++ y) (p.length + len) >>= fun _ =>
        .ok { out := bytesAt (p ++ y) p.length len, consumed := p.length + len, r0 := BitVec.ofNat 32 len } := by
  rw [varRule, if_neg Bool.false_ne_true, lendec_lenPrefix (.zero _) hp, ok_bind]

/-- Settles O47: each clause is a branch of the command's rule; the length of AX.VAR is `lendec`'s. -/
theorem axAttributePrimitives : Obligations.AxAttributePrimitives := by
  intro s legal
  refine ⟨fun empty => ⟨?_, ?_⟩, fun b rest input => ⟨fun flag => ?_, fun not0 not1 => ?_, ?_⟩,
    fun n _ present => ?_, fun n _ short => ?_, exec_gives legal rfl, fun p body rest hp input => ?_,
    fun p cut len hp input short => ?_, lenFault_clauses fun code d0 d1 fault =>
      failsWith_of_raises legal (lendec_fault (.zero _) fault).bind⟩
  case refine_1 | refine_2 =>
    refine failsWith_of_raises legal ?_
    rw [ruleOf, empty]
    exact need_raises Nat.zero_lt_one
  · have small : ¬ b.toNat > 1 := by rcases flag with rfl | rfl <;> decide
    refine exec_succeeds legal ?_ rfl
    rw [ruleOf, input, optRule_cons, if_neg small]
  · have large : b.toNat > 1 := by bv_omega
    refine failsWith_of_raises legal ?_
    rw [ruleOf, input, optRule_cons, if_pos large]
    exact raises_unknownEnumValue _
  · refine exec_succeeds legal ?_ rfl
    rw [ruleOf, input, peekRule_cons]
  · refine exec_gives legal ?_
    rw [ruleOf, fixedRule, need_fits present]
    rfl
  · exact failsWith_of_raises legal (need_raises short)
  · refine exec_gives legal ?_
    rw [ruleOf, input, List.append_assoc, varRule_false hp, need_fits (by simp), ← List.append_assoc, bytesAt_middle]
  · refine failsWith_of_raises legal ?_
    rw [ruleOf, input, varRule_false hp]
    exact need_raises (by simpa using short)

/-! ### Data types -/

/-- R150: the tag of a type. -/
def AxType.tag : AxType → Byte
  | .null => 0
  | .array => 1
  | .struct => 2
  | .bool => 3
  | .int32 => 5
  | .uint32 => 6
  | .octets => 9
  | .vstring => 10
  | .int8 => 15
  | .int16 => 16
  | .uint8 => 17
  | .uint16 => 18
  | .datetime => 25

/-- R150: a tag that names a type is that type's. -/
theorem AxType.eq_tag {t : Byte} {ty : AxType} (h : AxType.ofTag t = some ty) : t = ty.tag := by
  unfold AxType.ofTag at h
  split at h
  case h_14 => cases h
  all_goals
    cases h
    exact BitVec.eq_of_toNat_eq ‹_›

/-- R150: the tags of no type. -/
theorem AxType.ofTag_unknown {t : Byte} (h : t.toNat ∉ [0, 1, 2, 3, 5, 6, 9, 10, 15, 16, 17, 18, 25]) :
    AxType.ofTag t = none := by
  unfold AxType.ofTag
  split
  case h_14 => rfl
  all_goals simp [*] at h

/-- R150, R151: the integer types, with their kind and width. -/
inductive AxType.IsInt : AxType → (signed : Bool) → (w : Nat) → Prop where
  | int8 : IsInt .int8 true 1
  | uint8 : IsInt .uint8 false 1
  | int16 : IsInt .int16 true 2
  | uint16 : IsInt .uint16 false 2
  | int32 : IsInt .int32 true 4
  | uint32 : IsInt .uint32 false 4

/-! ### The item parser -/

section Item

variable {x y : List Byte} {k : Nat} {ty : AxType}

theorem item_null (h : Remaining x k (0 :: y)) :
    item x k = .ok { tag := 0, value := 0, body := [], next := k + 1, container := false, raw := 0 } := by
  rw [item, h.need_ok (by simp), h.byteAt_eq]
  rfl

theorem item_bool (h : Remaining x k (3 :: y)) :
    item x k = need x (k + 2) >>= fun _ =>
      .ok { tag := 3, value := if byteAt x (k + 1) = 0 then 0 else 1, body := [], next := k + 2, container := false
            raw := byteAt x (k + 1) } := by
  rw [item, h.need_ok (by simp), h.byteAt_eq]
  rfl

theorem item_datetime (h : Remaining x k (25 :: y)) :
    item x k = need x (k + 13) >>= fun _ =>
      .ok { tag := 25, value := 12, body := bytesAt x (k + 1) 12, next := k + 13, container := false, raw := 0 } := by
  rw [item, h.need_ok (by simp), h.byteAt_eq]
  rfl

theorem item_int {signed : Bool} {w : Nat} (int : ty.IsInt signed w) (h : Remaining x k (ty.tag :: y)) :
    item x k = intItem x k ty.tag signed w := by
  rw [item, h.need_ok (by simp), h.byteAt_eq]
  cases int <;> rfl

theorem item_string {t : Byte} (ht : t = 9 ∨ t = 10) (h : Remaining x k (t :: y)) :
    item x k = stringItem x k t := by
  rw [item, h.need_ok (by simp), h.byteAt_eq]
  rcases ht with rfl | rfl <;> rfl

theorem item_container {t : Byte} (ht : t = 1 ∨ t = 2) (h : Remaining x k (t :: y)) :
    item x k = containerItem x k t := by
  rw [item, h.need_ok (by simp), h.byteAt_eq]
  rcases ht with rfl | rfl <;> rfl

theorem item_unknown {t : Byte} (ht : AxType.ofTag t = none) (h : Remaining x k (t :: y)) :
    item x k = .error (.unknownEnumValue t.toNat) := by
  rw [item, h.need_ok (by simp), h.byteAt_eq]
  simp only [ht]

/-! ### The items `item` parses -/

/-- R151: a signed value of `w` bytes is sign-extended. -/
theorem extend32_signed {w n : Nat} {v : BitVec (8 * w)} (value : n = v.toNat) :
    extend32 true w n = v.signExtend 32 := by
  rw [value, extend32, if_pos rfl, BitVec.ofNat_toNat, BitVec.setWidth_eq]

/-- R151: an unsigned value of `w` bytes is zero-extended. -/
theorem extend32_unsigned {w n : Nat} {v : BitVec (8 * w)} (value : n = v.toNat) :
    extend32 false w n = v.setWidth 32 := by
  rw [value, extend32, if_neg Bool.false_ne_true, BitVec.ofNat_toNat]

/-- R156: an integer's tag, then its `w` bytes. -/
theorem item_int_parses {signed : Bool} {w : Nat} {bs : List Byte} {v : Word} (int : ty.IsInt signed w)
    (bytes : bs.length = w) (value : extend32 signed w (fromBE bs) = v) (h : Remaining x k (ty.tag :: bs ++ y)) :
    item x k = .ok { tag := ty.tag, value := v, body := [], next := k + (ty.tag :: bs).length, container := false
                     raw := 0 } := by
  subst bytes
  rw [List.cons_append] at h
  rw [item_int int h, intItem, h.tail.need_ok (by simp), h.tail.bytesAt_eq, value, List.length_cons, Nat.add_assoc,
    Nat.add_comm 1]

/-- R156: past a string's length its bytes are needed. -/
theorem stringItem_prefixed {t : Byte} {p : List Byte} {len : Nat} (hp : LenPrefix p len)
    (h : Remaining x k (t :: p ++ y)) :
    stringItem x k t = need x (k + 1 + p.length + len) >>= fun _ =>
      .ok { tag := t, value := BitVec.ofNat 32 len, body := bytesAt x (k + 1 + p.length) len
            next := k + 1 + p.length + len, container := false, raw := 0 } := by
  rw [stringItem, lendec_lenPrefix h.tail hp]
  rfl

theorem stringItem_parses {t : Byte} {p body : List Byte} (hp : LenPrefix p body.length)
    (h : Remaining x k (t :: p ++ body ++ y)) :
    stringItem x k t = .ok { tag := t, value := BitVec.ofNat 32 body.length, body := body
                             next := k + (t :: p ++ body).length, container := false, raw := 0 } := by
  rw [List.append_assoc] at h
  have size : k + (t :: p ++ body).length = k + 1 + p.length + body.length := by simp; omega
  rw [stringItem_prefixed hp h, h.tail.after.need_ok (by simp), h.tail.after.bytesAt_eq, size]

/-- R156, R157: of a container the header. -/
theorem containerItem_parses {t : Byte} {p : List Byte} {count : Nat} (hp : LenPrefix p count)
    (h : Remaining x k (t :: p ++ y)) :
    containerItem x k t = .ok { tag := t, value := BitVec.ofNat 32 count, body := [], next := k + (t :: p).length
                                container := true, raw := 0 } := by
  rw [containerItem, lendec_lenPrefix h.tail hp, ok_bind, List.length_cons, Nat.add_comm p.length, ← Nat.add_assoc]

theorem fromBE_one (b : Byte) : fromBE [b] = b.toNat := by simp [fromBE]

theorem fromBE_four (b c d e : Byte) : fromBE [b, c, d, e] = (b ++ c ++ d ++ e).toNat := by
  simp only [toNat_append_eq_add, fromBE, List.foldl]
  omega

/-- R150, R156: `item` parses every item, of a container the header. -/
theorem item_parses {bs body : List Byte} {t raw : Byte} {v : Word} {container : Bool}
    (hb : ItemBytes bs t v body raw container) (h : Remaining x k (bs ++ y)) :
    item x k = .ok { tag := t, value := v, body := body, next := k + bs.length, container := container
                     raw := raw } := by
  cases hb with
  | null => exact item_null h
  | bool b =>
    rw [item_bool h, h.need_ok (by simp), h.tail.byteAt_eq]
    rfl
  | int8 b => exact item_int_parses .int8 rfl (extend32_signed (w := 1) (fromBE_one b)) h
  | uint8 b => exact item_int_parses .uint8 rfl (extend32_unsigned (w := 1) (fromBE_one b)) h
  | int16 b c => exact item_int_parses .int16 rfl (extend32_signed (w := 2) (fromBE_pair b c)) h
  | uint16 b c => exact item_int_parses .uint16 rfl (extend32_unsigned (w := 2) (fromBE_pair b c)) h
  | int32 b c d e =>
    have value := extend32_signed (w := 4) (fromBE_four b c d e)
    exact item_int_parses .int32 rfl (value.trans (BitVec.signExtend_eq _)) h
  | uint32 b c d e =>
    have value := extend32_unsigned (w := 4) (fromBE_four b c d e)
    exact item_int_parses .uint32 rfl (value.trans (BitVec.setWidth_eq _)) h
  | octets p body hp => rw [item_string (.inl rfl) h, stringItem_parses hp h]
  | vstring p body hp => rw [item_string (.inr rfl) h, stringItem_parses hp h]
  | datetime body twelve =>
    have bytes := h.tail.bytesAt_eq
    rw [twelve] at bytes
    rw [item_datetime h, h.need_ok (by simp [twelve]), bytes, List.length_cons, twelve]
  | array p count hp => rw [item_container (.inl rfl) h, containerItem_parses hp h]
  | struct p count hp => rw [item_container (.inr rfl) h, containerItem_parses hp h]

/-! ### The errors of `item` -/

/-- R156: the bytes that an item of a type without a length takes. -/
def AxType.fixedSize : AxType → Option Nat
  | .bool | .int8 | .uint8 => some 2
  | .int16 | .uint16 => some 3
  | .int32 | .uint32 => some 5
  | .datetime => some 13
  | .null | .array | .struct | .octets | .vstring => none

theorem AxType.exists_fixedSize {t : Byte} {n : Nat}
    (h : (t.toNat, n) ∈ [(3, 2), (15, 2), (17, 2), (16, 3), (18, 3), (5, 5), (6, 5), (25, 13)]) :
    ∃ ty : AxType, t = ty.tag ∧ ty.fixedSize = some n := by
  simp only [List.mem_cons, Prod.mk.injEq, List.not_mem_nil, or_false] at h
  rcases h with ⟨h, rfl⟩ | ⟨h, rfl⟩ | ⟨h, rfl⟩ | ⟨h, rfl⟩ | ⟨h, rfl⟩ | ⟨h, rfl⟩ | ⟨h, rfl⟩ | ⟨h, rfl⟩
  · exact ⟨.bool, BitVec.eq_of_toNat_eq h, rfl⟩
  · exact ⟨.int8, BitVec.eq_of_toNat_eq h, rfl⟩
  · exact ⟨.uint8, BitVec.eq_of_toNat_eq h, rfl⟩
  · exact ⟨.int16, BitVec.eq_of_toNat_eq h, rfl⟩
  · exact ⟨.uint16, BitVec.eq_of_toNat_eq h, rfl⟩
  · exact ⟨.int32, BitVec.eq_of_toNat_eq h, rfl⟩
  · exact ⟨.uint32, BitVec.eq_of_toNat_eq h, rfl⟩
  · exact ⟨.datetime, BitVec.eq_of_toNat_eq h, rfl⟩

/-- R156: an item of a fixed size needs all its bytes. -/
theorem item_fixedCut {n : Nat} (fixed : ty.fixedSize = some n) (h : Remaining x k (ty.tag :: y))
    (short : y.length + 1 < n) : Raises (item x k) 1 (k + n) (k + (y.length + 1)) := by
  have int {signed : Bool} {w : Nat} (hi : ty.IsInt signed w) (hn : n = 1 + w) :
      Raises (item x k) 1 (k + n) (k + (y.length + 1)) := by
    rw [item_int hi h, intItem, Nat.add_assoc, ← hn]
    exact h.need_short short
  cases ty with
  | null | array | struct | octets | vstring => cases fixed
  | bool =>
    cases fixed
    rw [item_bool h]
    exact h.need_short short
  | datetime =>
    cases fixed
    rw [item_datetime h]
    exact h.need_short short
  | int8 => cases fixed; exact int .int8 rfl
  | uint8 => cases fixed; exact int .uint8 rfl
  | int16 => cases fixed; exact int .int16 rfl
  | uint16 => cases fixed; exact int .uint16 rfl
  | int32 => cases fixed; exact int .int32 rfl
  | uint32 => cases fixed; exact int .uint32 rfl

/-- R156: strings and containers begin with a length. -/
theorem item_measured {t : Byte} (ht : t.toNat ∈ [1, 2, 9, 10]) (h : Remaining x k (t :: y)) :
    ∃ body, item x k = lendec x (k + 1) >>= body := by
  simp only [List.mem_cons, List.not_mem_nil, or_false] at ht
  rcases ht with ht | ht | ht | ht
  · exact ⟨_, item_container (.inl (BitVec.eq_of_toNat_eq ht)) h⟩
  · exact ⟨_, item_container (.inr (BitVec.eq_of_toNat_eq ht)) h⟩
  · exact ⟨_, item_string (.inl (BitVec.eq_of_toNat_eq ht)) h⟩
  · exact ⟨_, item_string (.inr (BitVec.eq_of_toNat_eq ht)) h⟩

theorem item_lengthFault {t : Byte} {code : Byte} {d0 d1 : Nat} (ht : t.toNat ∈ [1, 2, 9, 10])
    (h : Remaining x k (t :: y)) (fault : LenFault (k + 1) y code d0 d1) : Raises (item x k) code d0 d1 := by
  obtain ⟨body, measured⟩ := item_measured ht h
  rw [measured]
  exact (lendec_fault h.tail fault).bind

/-- R143, R156: `item` raises the error of bytes that hold no whole item. -/
theorem item_fault {code : Byte} {d0 d1 : Nat} (fault : ItemFault k y code d0 d1) (h : Remaining x k y) :
    Raises (item x k) code d0 d1 := by
  cases fault with
  | absent => exact h.need_short (by simp)
  | unknown t cut unlisted =>
    rw [item_unknown (AxType.ofTag_unknown unlisted) h]
    exact raises_unknownEnumValue _
  | fixedCut t cut n short listed =>
    obtain ⟨ty, rfl, fixed⟩ := AxType.exists_fixedSize listed
    exact item_fixedCut fixed h short
  | lengthAbsent t ht => exact item_lengthFault ht h .absent
  | lengthMalformed t cut ht => exact item_lengthFault ht h (.malformed cut)
  | lengthTooLong t _ cut ht h4 h7 => exact item_lengthFault ht h (.tooLong _ cut h4 h7)
  | lengthCut t n cut ht h1 h4 short => exact item_lengthFault ht h (.cut n cut h1 h4 short)
  | bodyCut t p cut len ht hp short =>
    have string : t = 9 ∨ t = 10 := ht.imp BitVec.eq_of_toNat_eq BitVec.eq_of_toNat_eq
    rw [item_string string h, stringItem_prefixed hp h]
    exact h.tail.after.need_short short

end Item

/-! ### AX.DEC -/

/-- R155: past the check of its tag AX.DEC parses the item. -/
theorem axDecRule_item {e : Bool} {tag t : Byte} {y : List Byte} (right : e = true → t = tag) :
    axDecRule e tag (t :: y) = item (t :: y) 0 >>= fun it =>
      .ok { out := it.body, consumed := it.next, r0 := it.tag.setWidth 32, r1 := it.value
            r2 := it.raw.setWidth 32 } := by
  rw [axDecRule, need_fits (by simp), byteAt_zero, raiseIf_bind, if_neg fun ⟨he, wrong⟩ => wrong (right he)]

/-- R155: the wrong tag. -/
theorem axDecRule_unexpected {tag t : Byte} (y : List Byte) (wrong : t ≠ tag) :
    Raises (axDecRule true tag (t :: y)) 2 t.toNat tag.toNat := by
  rw [axDecRule, need_fits (by simp), byteAt_zero, raiseIf_bind, if_pos ⟨rfl, wrong⟩]
  exact ⟨_, rfl, rfl, rfl, rfl⟩

theorem itemBytes_cons {bs body : List Byte} {t raw : Byte} {v : Word} {container : Bool}
    (h : ItemBytes bs t v body raw container) : ∃ y, bs = t :: y := by cases h <;> exact ⟨_, rfl⟩

/-- R155: AX.DEC reads any item. -/
theorem axDecRule_parses {e : Bool} {tag t raw : Byte} {bs body rest : List Byte} {v : Word} {container : Bool}
    (hb : ItemBytes bs t v body raw container) (right : e = true → t = tag) :
    axDecRule e tag (bs ++ rest) =
      .ok { out := body, consumed := bs.length, r0 := t.setWidth 32, r1 := v, r2 := raw.setWidth 32 } := by
  have parsed := item_parses hb (.zero (bs ++ rest))
  obtain ⟨y, rfl⟩ := itemBytes_cons hb
  rw [List.cons_append] at parsed ⊢
  rw [axDecRule_item right, parsed, ok_bind, Nat.zero_add]

/-- Settles O42: `item` parses every item (`item_parses`). -/
theorem axDecReadsAnItem : Obligations.AxDecReadsAnItem := by
  intro s e tag t raw bs body rest v container legal hb input right
  refine exec_gives legal ?_
  rw [ruleOf, input, axDecRule_parses hb fun he => (right he).symm]

/-- Settles O43: past the check of the tag the errors are those of `item` (`item_fault`). -/
theorem axDecErrors : Obligations.AxDecErrors := by
  intro s e tag legal
  refine ⟨fun empty => ?_, fun t rest input => ⟨fun he wrong => ?_, fun right => ?_⟩⟩
  · refine failsWith_of_raises legal ?_
    rw [ruleOf, empty]
    exact need_raises Nat.zero_lt_one
  · refine failsWith_of_raises legal ?_
    rw [ruleOf, input, he]
    exact axDecRule_unexpected rest wrong
  · have fail {code : Byte} {d0 d1 : Nat} (fault : ItemFault 0 (t :: rest) code d0 d1) :
        FailsWith (.axDec e tag) s code d0 d1 := by
      refine failsWith_of_raises legal ?_
      rw [ruleOf, input, axDecRule_item right]
      exact (item_fault fault (.zero _)).bind
    have size : s.input.length = 0 + rest.length + 1 := by rw [input, List.length_cons, Nat.zero_add]
    refine ⟨fun unlisted => fail (.unknown t rest unlisted), fun c listed tag short => ?_,
      fun ht p cut len hp split short => ?_, fun ht => ⟨?_, ?_, ?_, ?_⟩⟩
    · have failed := fail (.fixedCut t rest c.2 (by omega) (tag ▸ listed))
      rwa [← size, Nat.zero_add] at failed
    · subst split
      have failed := fail (.bodyCut t p cut len ht hp short)
      have present : 0 + 1 + p.length + cut.length = s.input.length := by
        rw [size, List.length_append]
        omega
      rwa [present, Nat.zero_add] at failed
    · rintro rfl
      exact fail (.lengthAbsent t ht)
    · rintro cut rfl
      exact fail (.lengthMalformed t cut ht)
    · rintro n cut h4 h7 rfl
      exact fail (.lengthTooLong t n cut ht h4 h7)
    · rintro n cut h1 h4 rfl short
      have failed := fail (.lengthCut t n cut ht h1 h4 short)
      have present : 0 + 2 + cut.length = s.input.length := by
        rw [size, List.length_cons]
        omega
      rwa [present, Nat.zero_add] at failed

/-! ### AX.ENC -/

section AxEnc

variable {x : List Byte} {a : Word} {t : Byte} {w : Nat}

theorem axEncRule_int {ty : AxType} {signed : Bool} (int : ty.IsInt signed w) :
    axEncRule ty.tag a x = encInt ty.tag signed w a := by cases int <;> rfl

theorem axEncRule_string (ht : t = 9 ∨ t = 10) : axEncRule t a x = encString t a x := by
  rcases ht with rfl | rfl <;> rfl

theorem axEncRule_container (ht : t = 1 ∨ t = 2) : axEncRule t a x = encContainer t a := by
  rcases ht with rfl | rfl <;> rfl

theorem axEncRule_bool :
    axEncRule 3 a x = if a.toNat > 1 then .error (.argumentError 0 a.toNat)
      else .ok { out := [3, a.setWidth 8], r0 := 3 } := raiseIf_bind ..

theorem axEncRule_datetime :
    axEncRule 25 a x = need x 12 >>= fun _ => .ok { out := 25 :: bytesAt x 0 12, consumed := 12, r0 := 25 } := rfl

theorem axEncRule_unknown (ht : AxType.ofTag t = none) : axEncRule t a x = .error (.unknownEnumValue t.toNat) := by
  rw [axEncRule, ht]

theorem intAccepts_signed :
    intAccepts true w a = true ↔ -(2 ^ (8 * w - 1) : Int) ≤ a.toInt ∧ a.toInt < 2 ^ (8 * w - 1) := by
  simp [intAccepts]

theorem intAccepts_unsigned : intAccepts false w a = true ↔ a.toNat < 2 ^ (8 * w) := by simp [intAccepts]

theorem encInt_accepts {signed : Bool} (fits : intAccepts signed w a = true) :
    encInt t signed w a = .ok { out := t :: beBytes w a.toNat, r0 := t.setWidth 32 } := by
  rw [encInt, raiseIf_bind, if_neg (by simp [fits])]

theorem encInt_refuses {signed : Bool} (misfit : ¬ intAccepts signed w a = true) :
    Raises (encInt t signed w a) 8 0 a.toNat := by
  rw [encInt, raiseIf_bind, if_pos (by simpa using misfit)]
  exact raises_argumentError _ _

end AxEnc

/-- Settles O40: integer types share `encInt`, whose check is R151's range (`intAccepts_signed`). -/
theorem axEncScalars : Obligations.AxEncScalars := by
  intro s legal
  have int {ty : AxType} {signed : Bool} {w : Nat} {bytes : List Byte} (hi : ty.IsInt signed w)
      (value : beBytes w s.arg0.toNat = bytes) (fits : intAccepts signed w s.arg0 = true) :
      Gives (.axEnc ty.tag) s { out := ty.tag :: bytes, r0 := ty.tag.setWidth 32 } := by
    refine exec_gives legal ?_
    rw [ruleOf, axEncRule_int hi, encInt_accepts fits, value]
  have misfit {ty : AxType} {signed : Bool} {w : Nat} (hi : ty.IsInt signed w)
      (out : ¬ intAccepts signed w s.arg0 = true) : FailsWith (.axEnc ty.tag) s 8 0 s.arg0.toNat := by
    refine failsWith_of_raises legal ?_
    rw [ruleOf, axEncRule_int hi]
    exact encInt_refuses out
  have one := beBytes_one s.arg0
  have two := beBytes_two s.arg0
  have four := beBytes_four s.arg0
  have upper := s.arg0.toInt_lt
  have lower := s.arg0.le_toInt
  refine ⟨exec_gives legal rfl, fun bit => ?_, fun not0 not1 => ?_,
    fun low high => int .int8 one (intAccepts_signed.mpr (by omega)),
    fun out => misfit .int8 (mt intAccepts_signed.mp (by omega)),
    fun low high => int .int16 two (intAccepts_signed.mpr (by omega)),
    fun out => misfit .int16 (mt intAccepts_signed.mp (by omega)),
    fun small => int .uint8 one (intAccepts_unsigned.mpr (by omega)),
    fun large => misfit .uint8 (mt intAccepts_unsigned.mp (by omega)),
    fun small => int .uint16 two (intAccepts_unsigned.mpr (by omega)),
    fun large => misfit .uint16 (mt intAccepts_unsigned.mp (by omega)),
    int .int32 four (intAccepts_signed.mpr ⟨lower, upper⟩),
    int .uint32 four (intAccepts_unsigned.mpr s.arg0.isLt)⟩
  · refine exec_gives legal ?_
    rw [ruleOf]
    rcases bit with bit | bit <;> rw [bit] <;> rfl
  · refine failsWith_of_raises legal ?_
    rw [ruleOf, axEncRule_bool, if_pos (by bv_omega)]
    exact raises_argumentError _ _

/-- Settles O41: each clause is a branch of the rule; its lengths have the form of R142 (`axlen_eq_minimalPrefix`). -/
theorem axEncBytesAndHeaders : Obligations.AxEncBytesAndHeaders := by
  intro s legal
  refine ⟨fun t listed => ⟨fun present => ?_, fun short => ?_⟩, fun t listed => ?_, fun present => ?_,
    fun short => ?_, fun t unlisted => ?_⟩
  · refine exec_gives legal ?_
    rw [ruleOf, axEncRule_string (by simpa using listed), encString, need_fits present, axlen_eq_minimalPrefix]
    rfl
  · refine failsWith_of_raises legal ?_
    rw [ruleOf, axEncRule_string (by simpa using listed)]
    exact need_raises short
  · refine exec_gives legal ?_
    rw [ruleOf, axEncRule_container (by simpa using listed), encContainer, axlen_eq_minimalPrefix]
  · refine exec_gives legal ?_
    rw [ruleOf, axEncRule_datetime, need_fits present]
    rfl
  · exact failsWith_of_raises legal (need_raises short)
  · refine failsWith_of_raises legal ?_
    rw [ruleOf, axEncRule_unknown (AxType.ofTag_unknown unlisted)]
    exact raises_unknownEnumValue _

/-! ### The round trip -/

/-- R151: sign extension gives an accepted value back: its `w` bytes are its remainder in the range that is symmetric
around 0, where the value itself lies. -/
theorem extend32_beBytes_signed {w : Nat} {a : Word} (w1 : 1 ≤ w) (w4 : w ≤ 4) (fits : intAccepts true w a = true) :
    extend32 true w (fromBE (beBytes w a.toNat)) = a := by
  obtain ⟨low, high⟩ := intAccepts_signed.mp fits
  have double : (2 ^ (8 * w) : Int) = 2 ^ (8 * w - 1) * 2 := by rw [← pow_succ, Nat.sub_add_cancel (by omega)]
  have narrow : 2 ^ (8 * w) ∣ 2 ^ 32 := Nat.pow_dvd_pow 2 (by omega)
  have word : a.toInt = Int.bmod a.toNat (2 ^ 32) := a.toInt_eq_toNat_bmod
  refine BitVec.eq_of_toInt_eq ?_
  rw [extend32, if_pos rfl, fromBE_beBytes, BitVec.toInt_signExtend_of_le (by omega), BitVec.toInt_ofNat', Nat.pow_mul]
  calc Int.bmod (a.toNat % 256 ^ w : Nat) (256 ^ w)
    _ = Int.bmod a.toNat (256 ^ w) := by rw [Int.natCast_mod, Int.emod_bmod]
    _ = Int.bmod a.toInt (2 ^ (8 * w)) := by rw [word, Int.bmod_bmod_of_dvd narrow, Nat.pow_mul]
    _ = a.toInt := by
      refine Int.bmod_eq_of_le_mul_two ?_ ?_ <;> push_cast <;> omega

theorem extend32_beBytes_unsigned {w : Nat} {a : Word} (fits : intAccepts false w a = true) :
    extend32 false w (fromBE (beBytes w a.toNat)) = a := by
  rw [extend32, if_neg Bool.false_ne_true, fromBE_beBytes_of_lt (intAccepts_unsigned.mp fits), BitVec.ofNat_toNat,
    BitVec.setWidth_eq]

theorem extend32_beBytes {ty : AxType} {signed : Bool} {w : Nat} {a : Word} (int : ty.IsInt signed w)
    (fits : intAccepts signed w a = true) : extend32 signed w (fromBE (beBytes w a.toNat)) = a := by
  cases int with
  | int8 | int16 | int32 => exact extend32_beBytes_signed (by decide) (by decide) fits
  | uint8 | uint16 | uint32 => exact extend32_beBytes_unsigned fits

/-- R158: AX.ENC emits its tag first, and `item` reads back what it emits. -/
theorem item_axEncRule {t : Byte} {a : Word} {x rest : List Byte} {r : Result} (h : axEncRule t a x = .ok r) :
    ∃ y raw container, r.out = t :: y ∧ item (r.out ++ rest) 0 = .ok {
      tag := t, value := if t = 0 then 0 else if t = 25 then 12 else a, body := x.take r.consumed
      next := r.out.length, container := container, raw := raw } := by
  have listed {bs body : List Byte} {t raw : Byte} {v : Word} {container : Bool}
      (hb : ItemBytes bs t v body raw container) : item (bs ++ rest) 0 = .ok {
        tag := t, value := v, body := body, next := bs.length, container := container, raw := raw } := by
    have parsed := item_parses hb (.zero (bs ++ rest))
    rwa [Nat.zero_add] at parsed
  have int {ty : AxType} {signed : Bool} {w : Nat} (hi : ty.IsInt signed w) (h : axEncRule ty.tag a x = .ok r) :
      ∃ y raw container, r.out = ty.tag :: y ∧ item (r.out ++ rest) 0 = .ok {
        tag := ty.tag, value := a, body := x.take r.consumed, next := r.out.length, container := container
        raw := raw } := by
    rw [axEncRule_int hi] at h
    obtain ⟨fits, h⟩ := raiseIf_bind_ok h
    cases h
    have parsed := item_int_parses hi (beBytes_length _ _) (extend32_beBytes hi (by simpa using fits))
      (.zero (ty.tag :: beBytes w a.toNat ++ rest))
    rw [Nat.zero_add] at parsed
    exact ⟨_, _, _, rfl, parsed⟩
  have word : BitVec.ofNat 32 a.toNat = a := by rw [BitVec.ofNat_toNat, BitVec.setWidth_eq]
  have count := lenPrefix_axlen a.isLt
  have length (present : a.toNat ≤ x.length) : (x.take a.toNat).length = a.toNat := List.length_take_of_le present
  cases hty : AxType.ofTag t with
  | none =>
    rw [axEncRule_unknown hty] at h
    cases h
  | some ty =>
    obtain rfl := AxType.eq_tag hty
    cases ty with
    | null =>
      cases h
      exact ⟨_, _, _, rfl, listed .null⟩
    | bool =>
      obtain ⟨bit, h⟩ := raiseIf_bind_ok h
      cases h
      obtain rfl | rfl : a = 0 ∨ a = 1 := by bv_omega
      · exact ⟨_, _, _, rfl, listed (.bool 0)⟩
      · exact ⟨_, _, _, rfl, listed (.bool 1)⟩
    | int8 => exact int .int8 h
    | uint8 => exact int .uint8 h
    | int16 => exact int .int16 h
    | uint16 => exact int .uint16 h
    | int32 => exact int .int32 h
    | uint32 => exact int .uint32 h
    | octets =>
      obtain ⟨present, h⟩ := need_bind_ok h
      cases h
      have parsed := listed (.octets _ (x.take a.toNat) ((length present).symm ▸ count))
      rw [length present, word] at parsed
      exact ⟨_, _, _, rfl, parsed⟩
    | vstring =>
      obtain ⟨present, h⟩ := need_bind_ok h
      cases h
      have parsed := listed (.vstring _ (x.take a.toNat) ((length present).symm ▸ count))
      rw [length present, word] at parsed
      exact ⟨_, _, _, rfl, parsed⟩
    | array =>
      cases h
      have parsed := listed (.array _ _ count)
      rw [word] at parsed
      exact ⟨_, _, _, rfl, parsed⟩
    | struct =>
      cases h
      have parsed := listed (.struct _ _ count)
      rw [word] at parsed
      exact ⟨_, _, _, rfl, parsed⟩
    | datetime =>
      obtain ⟨present, h⟩ := need_bind_ok h
      cases h
      exact ⟨_, _, _, rfl, listed (.datetime (x.take 12) (List.length_take_of_le present))⟩

/-- Settles O44: AX.DEC takes from `item` what AX.ENC put there (`item_axEncRule`). -/
theorem axItemRoundTrip : Obligations.AxItemRoundTrip := by
  intro t a x rest r h
  obtain ⟨y, raw, container, out, parsed⟩ := item_axEncRule (rest := rest) h
  have decoded : axDecRule true t (t :: (y ++ rest)) = _ := axDecRule_item fun _ => rfl
  rw [← List.cons_append, ← out, parsed, ok_bind] at decoded
  exact ⟨_, decoded, rfl, rfl, rfl, rfl⟩

/-! ### The walk of AX.SKIP -/

/-- R160: the walk of `n` items at depth `d`, with the fuel AX.SKIP gives it, which decides nothing (log entry 13). -/
def walk (x : List Byte) (limit n d : Nat) (w : Walk) : Except CmdError Walk := walkItems x limit x.length n d w

/-- R160: the walk after the item `it` at depth `d`, its elements not counted. -/
def Walk.visit (w : Walk) (it : Item) (d : Nat) : Walk :=
  { next := it.next, maxd := max w.maxd d, nodes := w.nodes + 1 }

section Walk

variable {x y : List Byte} {limit n d : Nat} {w : Walk} {it : Item}

theorem walk_zero : walk x limit 0 d w = .ok w := by
  rw [walk]
  cases x.length <;> rfl

/-- One more unit of fuel does not change the walk (`walkItems_fuel`), so its equation does not speak of fuel. -/
theorem walk_eq : walk x limit (n + 1) d w = walkItems x limit (x.length + 1) (n + 1) d w :=
  (walkItems_fuel (Nat.le_add_right _ _)).symm

theorem walk_deep (deep : limit < d) : walk x limit (n + 1) d w = .error (.depthExceeded d limit) := by
  rw [walk_eq, walkItems, if_pos deep]

theorem walk_fault {code : Byte} {d0 d1 : Nat} (shallow : d ≤ limit) (fault : Raises (item x w.next) code d0 d1) :
    Raises (walk x limit (n + 1) d w) code d0 d1 := by
  rw [walk_eq, walkItems, if_neg shallow.not_gt]
  exact fault.bind

theorem walk_leaf (shallow : d ≤ limit) (parsed : item x w.next = .ok it) (leaf : it.container = false) :
    walk x limit (n + 1) d w = walk x limit n d (w.visit it d) := by
  rw [walk_eq, walkItems, if_neg shallow.not_gt, parsed, ok_bind]
  simp only [leaf]
  rfl

theorem walk_node (shallow : d ≤ limit) (parsed : item x w.next = .ok it) (node : it.container = true) :
    walk x limit (n + 1) d w =
      walk x limit it.value.toNat (d + 1) (w.visit it d) >>= fun below => walk x limit n d below := by
  rw [walk_eq, walkItems, if_neg shallow.not_gt, parsed, ok_bind]
  simp only [node]
  rfl

end Walk

/-! ### The walk of whole trees -/

/-- The walk `w` after trees of `bytes` bytes, `depth` and `nodes`, whose top items are at depth `d + 1`. -/
def Walk.past (w : Walk) (d bytes depth nodes : Nat) : Walk :=
  { next := w.next + bytes, maxd := max w.maxd (d + depth), nodes := w.nodes + nodes }

theorem Walk.past_past (w : Walk) (d bytes bytes' depth depth' nodes nodes' : Nat) :
    (w.past d bytes depth nodes).past d bytes' depth' nodes' =
      w.past d (bytes + bytes') (max depth depth') (nodes + nodes') := by
  simp only [Walk.past, Walk.mk.injEq]
  omega

theorem Walk.visit_past {it : Item} {w : Walk} {size : Nat} (next : it.next = w.next + size)
    (d bytes depth nodes : Nat) :
    (w.visit it (d + 1)).past (d + 1) bytes depth nodes = w.past d (size + bytes) (1 + depth) (1 + nodes) := by
  simp only [Walk.past, Walk.visit, Walk.mk.injEq]
  omega

/-- R157: the header of a container, as the walk needs it. -/
theorem item_header {x hdr y : List Byte} {k : Nat} {t : Byte} {count : Word} (header : ItemBytes hdr t count [] 0 true)
    (h : Remaining x k (hdr ++ y)) :
    ∃ it, item x k = .ok it ∧ it.next = k + hdr.length ∧ it.value = count ∧ it.container = true :=
  ⟨_, item_parses header h, rfl, rfl, rfl⟩

/-- Wherever the bytes `bs` of so many whole trees begin, the walk of the items there goes past them. -/
def WalksPast (items : Nat) (bs : List Byte) (depth nodes : Nat) : Prop :=
  ∀ {x rest : List Byte} {limit n d : Nat} {w : Walk}, Remaining x w.next (bs ++ rest) → d + depth ≤ limit →
    d ≤ w.maxd → walk x limit (items + n) (d + 1) w = walk x limit n (d + 1) (w.past d bs.length depth nodes)

theorem walksPast_leaf {bs body : List Byte} {t raw : Byte} {v : Word} (hb : ItemBytes bs t v body raw false) :
    WalksPast 1 bs 1 1 := by
  intro x rest limit n d w here fits _
  rw [Nat.add_comm 1, walk_leaf fits (item_parses hb here) rfl]
  rfl

/-- R160: the header, then the elements one level deeper. -/
theorem walksPast_node {hdr bs : List Byte} {t : Byte} {count : Word} {depth nodes : Nat}
    (header : ItemBytes hdr t count [] 0 true) (elements : WalksPast count.toNat bs depth nodes) :
    WalksPast 1 (hdr ++ bs) (1 + depth) (1 + nodes) := by
  intro x rest limit n d w here fits _
  rw [List.append_assoc] at here
  obtain ⟨it, parsed, next, rfl, node⟩ := item_header header here
  have after : Remaining x (w.visit it (d + 1)).next (bs ++ rest) := by
    rw [Walk.visit, next]
    exact here.after
  have inside := elements (n := 0) (d := d + 1) after (by omega : d + 1 + depth ≤ limit) (Nat.le_max_right _ _)
  rw [Nat.add_zero, walk_zero, Walk.visit_past next, ← List.length_append] at inside
  rw [Nat.add_comm 1 n, walk_node (by omega) parsed node, inside, ok_bind]

theorem walksPast_nil : WalksPast 0 [] 0 0 := by
  intro x rest limit n d w _ _ seen
  have same : w.past d 0 0 0 = w := by simp [Walk.past, seen]
  rw [Nat.zero_add, List.length_nil, same]

theorem walksPast_cons {items : Nat} {bs bs' : List Byte} {depth depth' nodes nodes' : Nat}
    (first : WalksPast 1 bs depth nodes) (others : WalksPast items bs' depth' nodes') :
    WalksPast (items + 1) (bs ++ bs') (max depth depth') (nodes + nodes') := by
  intro x rest limit n d w here fits seen
  rw [List.append_assoc] at here
  have deepest := Nat.le_max_left depth depth'
  have deepest' := Nat.le_max_right depth depth'
  calc walk x limit (items + 1 + n) (d + 1) w
    _ = walk x limit (1 + (items + n)) (d + 1) w := by rw [Nat.add_comm items, Nat.add_assoc]
    _ = walk x limit (items + n) (d + 1) (w.past d bs.length depth nodes) := first here (by omega) seen
    _ = walk x limit n (d + 1) ((w.past d bs.length depth nodes).past d bs'.length depth' nodes') :=
      others here.after (by omega) (seen.trans (Nat.le_max_left _ _))
    _ = walk x limit n (d + 1) (w.past d (bs ++ bs').length (max depth depth') (nodes + nodes')) := by
      rw [Walk.past_past, List.length_append]

mutual

theorem tree_walksPast {bs : List Byte} {depth nodes : Nat} (h : TreeBytes bs depth nodes) :
    WalksPast 1 bs depth nodes :=
  match h with
  | .leaf _ _ _ _ _ hb => walksPast_leaf hb
  | .node _ _ _ _ _ _ header below => walksPast_node header (forest_walksPast below)

theorem forest_walksPast {items : Nat} {bs : List Byte} {depth nodes : Nat} (h : ForestBytes items bs depth nodes) :
    WalksPast items bs depth nodes :=
  match h with
  | .nil => walksPast_nil
  | .cons _ _ _ _ _ _ _ first others => walksPast_cons (tree_walksPast first) (forest_walksPast others)

end

/-- R160: AX.SKIP is the walk of one item from the start of the input. -/
theorem skipRule_eq (maxdepth : Byte) (x : List Byte) :
    skipRule maxdepth x = walk x maxdepth.toNat 1 1 { next := 0, maxd := 0, nodes := 0 } >>= fun w =>
      .ok { consumed := w.next, r0 := BitVec.ofNat 32 w.next, r1 := BitVec.ofNat 32 w.maxd
            r2 := BitVec.ofNat 32 w.nodes } := rfl

/-- Settles O45: the walk goes past every whole tree (`tree_walksPast`). -/
theorem axSkipWalksATree : Obligations.AxSkipWalksATree := by
  intro s bs rest depth nodes legal tree input fits
  have start : Remaining s.input 0 (bs ++ rest) := input ▸ .zero _
  have walked := tree_walksPast tree (n := 0) (d := 0) (w := { next := 0, maxd := 0, nodes := 0 }) start
    (by omega : 0 + depth ≤ s.maxdepth.toNat) (Nat.le_refl 0)
  rw [Nat.add_zero, walk_zero] at walked
  refine exec_gives legal ?_
  rw [ruleOf, skipRule_eq, walked, ok_bind]
  simp [Walk.past]

/-! ### The walks that fail -/

/-- R160: the walk raises the error of the first item that is too deep or does not parse. -/
theorem walk_walkFault {limit k d d0 d1 : Nat} {y : List Byte} {code : Byte}
    (fault : WalkFault limit y k d code d0 d1) : ∀ {x : List Byte} {n : Nat} {w : Walk}, Remaining x k y →
      w.next = k → Raises (walk x limit (n + 1) d w) code d0 d1 := by
  induction fault with
  | deep y k d deep =>
    intro x n w _ _
    rw [walk_deep deep]
    exact raises_depthExceeded _ _
  | here y k d code d0 d1 shallow fault =>
    rintro x n w here rfl
    exact walk_fault shallow (item_fault fault here)
  | inside hdr bs y t count j depth nodes k d code d0 d1 shallow header hj whole fits _ ih =>
    rintro x n w here rfl
    rw [List.append_assoc] at here
    obtain ⟨it, parsed, next, rfl, node⟩ := item_header header here
    have after : Remaining x (w.visit it d).next (bs ++ y) := by
      rw [Walk.visit, next]
      exact here.after
    obtain ⟨m, more⟩ : ∃ m, it.value.toNat = j + (m + 1) := ⟨it.value.toNat - j - 1, by omega⟩
    rw [walk_node shallow parsed node, more, forest_walksPast whole after fits (Nat.le_max_right _ _)]
    exact (ih here.after.after (by rw [Walk.past, Walk.visit, next])).bind

/-- With its top item at depth `d + 1` the tree `bs` goes beyond the limit: the walk fails at its first item there. -/
def TreeTooDeep (bs : List Byte) (depth : Nat) : Prop :=
  ∀ {limit d : Nat} (rest : List Byte) (k : Nat), d ≤ limit → limit < d + depth →
    WalkFault limit (bs ++ rest) k (d + 1) 10 (limit + 1) limit

/-- With their top items at depth `d + 1` one of the trees `bs` goes beyond the limit: the walk passes whole ones before
it and fails in it. -/
def ForestTooDeep (items : Nat) (bs : List Byte) (depth : Nat) : Prop :=
  ∀ {limit d : Nat}, d ≤ limit → limit < d + depth →
    ∃ (j : Nat) (passed left : List Byte) (depth' nodes : Nat), j < items ∧ bs = passed ++ left ∧
      ForestBytes j passed depth' nodes ∧ d + depth' ≤ limit ∧
      ∀ (rest : List Byte) (k : Nat), WalkFault limit (left ++ rest) k (d + 1) 10 (limit + 1) limit

theorem walkFault_beyond (limit : Nat) (x : List Byte) (k : Nat) :
    WalkFault limit x k (limit + 1) 10 (limit + 1) limit := .deep x k _ (Nat.lt_succ_self _)

/-- A single item is too deep where the limit is just above it. -/
theorem treeTooDeep_leaf (bs : List Byte) : TreeTooDeep bs 1 := by
  intro limit d rest k shallow deep
  obtain rfl : d = limit := by omega
  exact walkFault_beyond d _ k

theorem treeTooDeep_node {hdr bs : List Byte} {t : Byte} {count : Word} {depth : Nat}
    (header : ItemBytes hdr t count [] 0 true) (elements : ForestTooDeep count.toNat bs depth) :
    TreeTooDeep (hdr ++ bs) (1 + depth) := by
  intro limit d rest k shallow deep
  by_cases last : d = limit
  · subst last
    exact walkFault_beyond d _ k
  · obtain ⟨j, passed, left, depth', nodes, hj, rfl, whole, fits, fault⟩ :=
      elements (by omega : d + 1 ≤ limit) (by omega)
    rw [← List.append_assoc, List.append_assoc]
    exact .inside hdr passed (left ++ rest) t count j depth' nodes k (d + 1) 10 _ _ (by omega) header hj whole fits
      (fault rest _)

theorem forestTooDeep_cons {items : Nat} {bs bs' : List Byte} {depth depth' nodes : Nat}
    (whole : TreeBytes bs depth nodes) (first : TreeTooDeep bs depth) (others : ForestTooDeep items bs' depth') :
    ForestTooDeep (items + 1) (bs ++ bs') (max depth depth') := by
  intro limit d shallow deep
  by_cases here : limit < d + depth
  · refine ⟨0, [], bs ++ bs', 0, 0, Nat.succ_pos _, rfl, .nil, shallow, fun rest k => ?_⟩
    rw [List.append_assoc]
    exact first _ k shallow here
  · obtain ⟨j, passed, left, depth'', nodes', hj, rfl, passedWhole, fits, fault⟩ := others shallow (by omega)
    exact ⟨j + 1, bs ++ passed, left, _, _, Nat.succ_lt_succ hj, (List.append_assoc ..).symm,
      .cons _ _ _ _ _ _ _ whole passedWhole, by omega, fault⟩

mutual

theorem tree_tooDeep {bs : List Byte} {depth nodes : Nat} (h : TreeBytes bs depth nodes) : TreeTooDeep bs depth :=
  match h with
  | .leaf bs _ _ _ _ _ => treeTooDeep_leaf bs
  | .node _ _ _ _ _ _ header below => treeTooDeep_node header (forest_tooDeep below)

theorem forest_tooDeep {items : Nat} {bs : List Byte} {depth nodes : Nat} (h : ForestBytes items bs depth nodes) :
    ForestTooDeep items bs depth :=
  match h with
  | .nil => fun shallow deep => absurd deep shallow.not_gt
  | .cons _ _ _ _ _ _ _ first others => forestTooDeep_cons first (tree_tooDeep first) (forest_tooDeep others)

end

/-- Settles O46: every clause names a fault of the walk (`WalkFault`), and the walk raises each of them
(`walk_walkFault`); in a tree that is too deep it is at the first item beyond the limit (`tree_tooDeep`). -/
theorem axSkipGuardsDepthAndInput : Obligations.AxSkipGuardsDepthAndInput := by
  intro s legal
  have fail {code : Byte} {d0 d1 : Nat} (fault : WalkFault s.maxdepth.toNat s.input 0 1 code d0 d1) :
      FailsWith .axSkip s code d0 d1 := by
    refine failsWith_of_raises legal ?_
    rw [ruleOf, skipRule_eq]
    exact (walk_walkFault fault (.zero _) rfl).bind
  refine ⟨fun bs rest depth nodes tree input deep => fail ?_, fun none => fail ?_, fun shallow empty => fail ?_,
    fun shallow t rest input unlisted => fail ?_, fun shallow t count header some => ?_, fun _ _ _ => fail⟩
  · rw [input]
    exact tree_tooDeep tree rest 0 (Nat.zero_le _) (by omega)
  · rw [none]
    exact walkFault_beyond 0 _ 0
  · rw [empty]
    exact .here _ _ _ _ _ _ shallow .absent
  · rw [input]
    exact .here _ _ _ _ _ _ shallow (.unknown t rest unlisted)
  · have first : 0 < count.toNat := Nat.pos_of_ne_zero fun zero => some (BitVec.eq_of_toNat_eq zero)
    have absent := WalkFault.inside s.input [] [] t count 0 0 0 0 1 1 _ _ (by omega) header first .nil (by omega)
      (.here [] _ _ _ _ _ shallow .absent)
    simp only [List.append_nil, List.length_nil, Nat.add_zero, Nat.zero_add] at absent
    exact fail absent

end Sys2Proof.Machine
end

/-! PROOF. The statements of 43_hdlc.md: addresses (O48 to O51), the format field and the control byte (O52, O53), and the
frames (O54 to O60). -/
section

namespace Sys2Proof.Machine

/-! ### Errors -/

theorem raises_addressError {α : Type} (n upper : Nat) :
    Raises (.error (.addressError n upper) : Except CmdError α) 13 n upper := ⟨_, rfl, rfl, rfl, rfl⟩

theorem raises_malformed {α : Type} (v : Nat) :
    Raises (.error (.malformed v) : Except CmdError α) 14 v 0 := ⟨_, rfl, rfl, rfl, rfl⟩

/-! ### The fields of a word -/

/-- R5: bits lo + len - 1..lo of a word as a number. -/
theorem bitsOf_eq (v : Word) (lo len : Nat) : bitsOf v lo len = v.toNat / 2 ^ lo % 2 ^ len := by
  rw [bitsOf, BitVec.extractLsb'_toNat, Nat.shiftRight_eq_div_pow]

theorem bitsOf_lt (v : Word) (lo len : Nat) : bitsOf v lo len < 2 ^ len := (v.extractLsb' lo len).isLt

theorem bitsOf_whole (v : Word) : bitsOf v 0 32 = v.toNat := by
  rw [bitsOf_eq, pow_zero, Nat.div_one, Nat.mod_eq_of_lt v.isLt]

/-- A field is its low part and its high part. -/
theorem bitsOf_add (v : Word) (lo m n : Nat) : bitsOf v lo (m + n) = bitsOf v lo m + 2 ^ m * bitsOf v (lo + m) n := by
  rw [bitsOf_eq, bitsOf_eq, bitsOf_eq, pow_add, Nat.mod_mul, Nat.div_div_eq_div_mul, ← pow_add]

/-- A bit of a field. -/
theorem getLsbD_eq_testBit_bitsOf (v : Word) (lo : Nat) {i len : Nat} (h : i < len) :
    v.getLsbD (lo + i) = (bitsOf v lo len).testBit i := by
  rw [bitsOf, BitVec.testBit_toNat, BitVec.getLsbD_extractLsb']
  simp [h]

/-- A field of one bit. -/
theorem bitsOf_one (v : Word) (i : Nat) : bitsOf v i 1 = (v.getLsbD i).toNat := by
  have bit : v.getLsbD i = (bitsOf v i 1).testBit 0 := getLsbD_eq_testBit_bitsOf v i Nat.zero_lt_one
  have small := bitsOf_lt v i 1
  rw [bit]
  interval_cases bitsOf v i 1 <;> rfl

/-- A mask keeps a field whose bits are all 1 in it. -/
theorem bitsOf_and_ones {v m : Word} {lo len : Nat} (ones : m.extractLsb' lo len = BitVec.allOnes len) :
    bitsOf (v &&& m) lo len = bitsOf v lo len := by
  rw [bitsOf, BitVec.extractLsb'_and, ones, BitVec.and_allOnes, bitsOf]

/-- A mask clears a field whose bits are all 0 in it. -/
theorem bitsOf_and_zeros {v m : Word} {lo len : Nat} (zeros : m.extractLsb' lo len = 0#len) :
    bitsOf (v &&& m) lo len = 0 := by
  rw [bitsOf, BitVec.extractLsb'_and, zeros, BitVec.and_zero]
  rfl

/-- A mask clears the difference of two words exactly when they agree under it. -/
theorem xor_and_eq_zero_iff (v w m : Word) : (v ^^^ w) &&& m = 0 ↔ v &&& m = w &&& m := by
  have parts : (v ^^^ w) &&& m = (v &&& m) ^^^ (w &&& m) := by
    ext i hi
    simp [Bool.and_xor_distrib_right]
  rw [parts]
  exact BitVec.xor_eq_zero_iff

/-! ### The fields of an address descriptor -/

/-- R180: LOGICAL, a reserved bit, PHYSICAL, the flags P, ROLE and E, reserved bits, LEN, reserved bits. -/
theorem toNat_addressFields (v : Word) :
    v.toNat = bitsOf v 0 7 + 2 ^ 7 * (bitsOf v 7 1 + 2 ^ 1 * (bitsOf v 8 7 + 2 ^ 7 * (bitsOf v 15 3 + 2 ^ 3 *
      (bitsOf v 18 6 + 2 ^ 6 * (bitsOf v 24 3 + 2 ^ 3 * bitsOf v 27 5))))) := by
  rw [← bitsOf_whole]
  simp only [bitsOf_add v 0 7 25, bitsOf_add v 7 1 24, bitsOf_add v 8 7 17, bitsOf_add v 15 3 14, bitsOf_add v 18 6 8,
    bitsOf_add v 24 3 5]

/-- R180: words with the same fields are the same word. -/
theorem addressFields_ext {v w : Word} (logical : bitsOf v 0 7 = bitsOf w 0 7) (bit7 : bitsOf v 7 1 = bitsOf w 7 1)
    (physical : bitsOf v 8 7 = bitsOf w 8 7) (flags : bitsOf v 15 3 = bitsOf w 15 3)
    (reserved : bitsOf v 18 6 = bitsOf w 18 6) (len : bitsOf v 24 3 = bitsOf w 24 3)
    (top : bitsOf v 27 5 = bitsOf w 27 5) : v = w :=
  BitVec.eq_of_toNat_eq (by rw [toNat_addressFields v, toNat_addressFields w, logical, bit7, physical, flags, reserved,
    len, top])

/-- R180: the descriptor with these fields; `flags` holds P, ROLE and E. -/
def addressWord (logical physical flags len : Nat) : Word :=
  BitVec.ofNat 32 (logical + 2 ^ 8 * physical + 2 ^ 15 * flags + 2 ^ 24 * len)

theorem toNat_addressWord {l p f n : Nat} (hl : l < 128) (hp : p < 128) (hf : f < 8) (hn : n < 8) :
    (addressWord l p f n).toNat = l + 2 ^ 8 * p + 2 ^ 15 * f + 2 ^ 24 * n := by
  rw [addressWord, BitVec.toNat_ofNat, Nat.mod_eq_of_lt (by omega)]

theorem bitsOf_addressWord {l p f n : Nat} (hl : l < 128) (hp : p < 128) (hf : f < 8) (hn : n < 8) :
    bitsOf (addressWord l p f n) 0 7 = l ∧ bitsOf (addressWord l p f n) 7 1 = 0 ∧
    bitsOf (addressWord l p f n) 8 7 = p ∧ bitsOf (addressWord l p f n) 15 3 = f ∧
    bitsOf (addressWord l p f n) 18 6 = 0 ∧ bitsOf (addressWord l p f n) 24 3 = n ∧
    bitsOf (addressWord l p f n) 27 5 = 0 := by
  simp only [bitsOf_eq, toNat_addressWord hl hp hf hn]
  omega

/-- R181's table in the model's terms. -/
theorem addrForm_iff {role : Role} {bs : List Byte} {d : Word} :
    AddrForm role bs d ↔ ∃ l p, l < 128 ∧ p < 128 ∧
      ((bs = [addrByte l true] ∧ d = addressWord l 0 (2 * role.bit.toNat) 1) ∨
        (role = .server ∧ bs = [addrByte l false, addrByte p true] ∧ d = addressWord l p 3 2) ∨
        (role = .server ∧ bs = [0, addrByte l false, 0, addrByte p true] ∧ d = addressWord l p 7 4)) := by
  have two (l p : Nat) : BitVec.ofNat 32 (l + 0x100 * p + 0x8000 + 0x10000 + 0x2000000) = addressWord l p 3 2 :=
    congrArg _ (by omega)
  have four (l p : Nat) :
      BitVec.ofNat 32 (l + 0x100 * p + 0x8000 + 0x10000 + 0x20000 + 0x4000000) = addressWord l p 7 4 :=
    congrArg _ (by omega)
  constructor
  · intro h
    cases h with
    | one _ l hl => exact ⟨l, 0, hl, by decide, .inl ⟨rfl, by cases role <;> rfl⟩⟩
    | two l p hl hp => exact ⟨l, p, hl, hp, .inr (.inl ⟨rfl, rfl, two l p⟩)⟩
    | four l p hl hp => exact ⟨l, p, hl, hp, .inr (.inr ⟨rfl, rfl, four l p⟩)⟩
  · rintro ⟨l, p, hl, hp, ⟨rfl, rfl⟩ | ⟨rfl, rfl, rfl⟩ | ⟨rfl, rfl, rfl⟩⟩
    · cases role
      · exact .one .client l hl
      · exact .one .server l hl
    · rw [← two]
      exact .two l p hl hp
    · rw [← four]
      exact .four l p hl hp

/-- R181: the length of an address fits LEN. -/
theorem addrForm_length_lt {role : Role} {bs : List Byte} {d : Word} (h : AddrForm role bs d) : bs.length < 8 := by
  cases h <;> simp

/-- R180: the bit P. -/
theorem getLsbD_p (a : Word) : a.getLsbD 15 = (bitsOf a 15 3).testBit 0 :=
  getLsbD_eq_testBit_bitsOf a 15 (i := 0) (len := 3) (by decide)

/-- R180: the bit ROLE. -/
theorem getLsbD_role (a : Word) : a.getLsbD 16 = (bitsOf a 15 3).testBit 1 :=
  getLsbD_eq_testBit_bitsOf a 15 (i := 1) (len := 3) (by decide)

/-- R180: the bit E. -/
theorem getLsbD_e (a : Word) : a.getLsbD 17 = (bitsOf a 15 3).testBit 2 :=
  getLsbD_eq_testBit_bitsOf a 15 (i := 2) (len := 3) (by decide)

/-! ### H.ADDRENC -/

/-- R180: the reserved bits of an address descriptor are 0. -/
def ReservedClear (a : Word) : Prop := bitsOf a 27 5 = 0 ∧ bitsOf a 18 6 = 0 ∧ bitsOf a 7 1 = 0

/-- R182: a reserved bit that is 1 is refused. -/
theorem addrbytes_reserved {a : Word} (i : Nat) (set : ¬ ReservedClear a) :
    addrbytes i a = .error (.argumentError i a.toNat) := by
  have bit7 : bitsOf a 7 1 = 0 ↔ ¬ a.getLsbD 7 = true := by
    rw [bitsOf_one]
    cases a.getLsbD 7 <;> decide
  rw [addrbytes, raiseIf_bind, if_pos]
  rw [ReservedClear, bit7] at set
  tauto

/-- R182: past the check of the reserved bits the flags P, ROLE and E choose the form. -/
theorem addrbytes_flags {a : Word} (i : Nat) (clear : ReservedClear a) :
    addrbytes i a =
      if bitsOf a 15 3 = 0 ∨ bitsOf a 15 3 = 2 then .ok [addrByte (bitsOf a 0 7) true]
      else if bitsOf a 15 3 = 3 then .ok [addrByte (bitsOf a 0 7) false, addrByte (bitsOf a 8 7) true]
      else if bitsOf a 15 3 = 7 then .ok [0, addrByte (bitsOf a 0 7) false, 0, addrByte (bitsOf a 8 7) true]
      else .error (.argumentError i a.toNat) := by
  obtain ⟨top, reserved, bit7⟩ := clear
  have clear7 : ¬ a.getLsbD 7 = true := by
    rw [bitsOf_one] at bit7
    exact ne_true_of_eq_false (Bool.toNat_eq_zero.mp bit7)
  rw [addrbytes, raiseIf_bind, if_neg (by simp only [top, reserved, clear7]; decide), getLsbD_p, getLsbD_role,
    getLsbD_e]
  have small := bitsOf_lt a 15 3
  interval_cases bitsOf a 15 3 <;> rfl

/-- R180: the bits of an address descriptor that H.ADDRENC looks at: not LEN, and PHYSICAL only when P = 1. -/
theorem namesMask_iff (a d : Word) :
    (a ^^^ d) &&& (if d.getLsbD 15 then 0xF8FFFFFF#32 else 0xF8FF80FF#32) = 0 ↔
      bitsOf a 0 7 = bitsOf d 0 7 ∧ bitsOf a 7 1 = bitsOf d 7 1 ∧ bitsOf a 15 3 = bitsOf d 15 3 ∧
      bitsOf a 18 6 = bitsOf d 18 6 ∧ bitsOf a 27 5 = bitsOf d 27 5 ∧
      (d.getLsbD 15 = true → bitsOf a 8 7 = bitsOf d 8 7) := by
  rw [xor_and_eq_zero_iff]
  constructor
  · intro same
    have field {lo len : Nat} (ones : (if d.getLsbD 15 then 0xF8FFFFFF#32 else 0xF8FF80FF#32).extractLsb' lo len
        = BitVec.allOnes len) : bitsOf a lo len = bitsOf d lo len := by
      rw [← bitsOf_and_ones ones, same, bitsOf_and_ones ones]
    cases p : d.getLsbD 15 <;> simp only [p] at field
    · exact ⟨field (by decide), field (by decide), field (by decide), field (by decide), field (by decide), nofun⟩
    · exact ⟨field (by decide), field (by decide), field (by decide), field (by decide), field (by decide),
        fun _ => field (by decide)⟩
  · rintro ⟨logical, bit7, flags, reserved, top, physical⟩
    cases p : d.getLsbD 15
    · apply addressFields_ext <;>
        simp (disch := decide) only [bitsOf_and_ones, bitsOf_and_zeros, Bool.false_eq_true, if_false, *]
    · apply addressFields_ext <;>
        simp (disch := decide) only [bitsOf_and_ones, bitsOf_and_zeros, if_true, physical p, *]

theorem reservedClear_addressWord {l p f n : Nat} (hl : l < 128) (hp : p < 128) (hf : f < 8) (hn : n < 8) :
    ReservedClear (addressWord l p f n) := by
  obtain ⟨-, bit7, -, -, reserved, -, top⟩ := bitsOf_addressWord hl hp hf hn
  exact ⟨top, reserved, bit7⟩

/-- R182: the bytes of a descriptor with these fields. -/
theorem addrbytes_addressWord {l p f n : Nat} (i : Nat) (hl : l < 128) (hp : p < 128) (hf : f < 8) (hn : n < 8) :
    addrbytes i (addressWord l p f n) =
      if f = 0 ∨ f = 2 then .ok [addrByte l true]
      else if f = 3 then .ok [addrByte l false, addrByte p true]
      else if f = 7 then .ok [0, addrByte l false, 0, addrByte p true]
      else .error (.argumentError i (addressWord l p f n).toNat) := by
  obtain ⟨logical, -, physical, flags, -, -, -⟩ := bitsOf_addressWord hl hp hf hn
  rw [addrbytes_flags i (reservedClear_addressWord hl hp hf hn), flags, logical, physical]

/-- R182: the descriptor of R181's table gives the bytes of the table. -/
theorem addrForm_addrbytes {role : Role} {bs : List Byte} {d : Word} (i : Nat) (h : AddrForm role bs d) :
    ReservedClear d ∧ addrbytes i d = .ok bs := by
  obtain ⟨l, p, hl, hp, ⟨rfl, rfl⟩ | ⟨rfl, rfl, rfl⟩ | ⟨rfl, rfl, rfl⟩⟩ := addrForm_iff.mp h
  · have hf : 2 * role.bit.toNat < 8 := by cases role <;> decide
    refine ⟨reservedClear_addressWord hl (by decide) hf (by decide), ?_⟩
    rw [addrbytes_addressWord i hl (by decide) hf (by decide)]
    cases role <;> rfl
  · refine ⟨reservedClear_addressWord hl hp (by decide) (by decide), ?_⟩
    rw [addrbytes_addressWord i hl hp (by decide) (by decide)]
    rfl
  · refine ⟨reservedClear_addressWord hl hp (by decide) (by decide), ?_⟩
    rw [addrbytes_addressWord i hl hp (by decide) (by decide)]
    rfl

/-- R180: PHYSICAL as `addrbytes` uses it, ignored when P = 0. -/
def usedPhysical (a : Word) : Nat := if a.getLsbD 15 then bitsOf a 8 7 else 0

theorem usedPhysical_lt (a : Word) : usedPhysical a < 128 := by
  unfold usedPhysical
  split
  · exact bitsOf_lt a 8 7
  · decide

/-- R182, R183: the descriptor that `addrdec` gives for the address `a` names, of `n` bytes. -/
def decodedAddress (a : Word) (n : Nat) : Word := addressWord (bitsOf a 0 7) (usedPhysical a) (bitsOf a 15 3) n

theorem bitsOf_decodedAddress (a : Word) {n : Nat} (small : n < 8) :
    bitsOf (decodedAddress a n) 0 7 = bitsOf a 0 7 ∧ bitsOf (decodedAddress a n) 7 1 = 0 ∧
    bitsOf (decodedAddress a n) 8 7 = usedPhysical a ∧ bitsOf (decodedAddress a n) 15 3 = bitsOf a 15 3 ∧
    bitsOf (decodedAddress a n) 18 6 = 0 ∧ bitsOf (decodedAddress a n) 24 3 = n ∧
    bitsOf (decodedAddress a n) 27 5 = 0 :=
  bitsOf_addressWord (bitsOf_lt a 0 7) (usedPhysical_lt a) (bitsOf_lt a 15 3) small

/-- R182: what `addrbytes` gives is the address that the descriptor names. -/
theorem addrForm_of_addrbytes {i : Nat} {a : Word} {bs : List Byte} (h : addrbytes i a = .ok bs) :
    ReservedClear a ∧ AddrForm (Role.ofBit (a.getLsbD 16)) bs (decodedAddress a bs.length) := by
  by_cases clear : ReservedClear a
  swap
  · rw [addrbytes_reserved i clear] at h
    cases h
  refine ⟨clear, addrForm_iff.mpr ⟨bitsOf a 0 7, usedPhysical a, bitsOf_lt a 0 7, usedPhysical_lt a, ?_⟩⟩
  rw [addrbytes_flags i clear] at h
  rw [decodedAddress, usedPhysical, getLsbD_p, getLsbD_role]
  split_ifs at h with one two four <;> cases h
  · rcases one with one | one <;> rw [one] <;> exact .inl ⟨rfl, rfl⟩
  · rw [two]
    exact .inr (.inl ⟨rfl, rfl, rfl⟩)
  · rw [four]
    exact .inr (.inr ⟨rfl, rfl, rfl⟩)

/-- A descriptor that H.ADDRENC accepts names the address it emits. -/
theorem namesAddress_of_addrbytes {i : Nat} {a : Word} {bs : List Byte} (h : addrbytes i a = .ok bs) :
    NamesAddress a (Role.ofBit (a.getLsbD 16)) bs := by
  obtain ⟨⟨top, reserved, bit7⟩, form⟩ := addrForm_of_addrbytes h
  obtain ⟨logical, bit7', physical, flags, reserved', -, top'⟩ := bitsOf_decodedAddress a (addrForm_length_lt form)
  have p : (decodedAddress a bs.length).getLsbD 15 = a.getLsbD 15 := by
    rw [getLsbD_p, getLsbD_p, flags]
  refine ⟨_, form, (namesMask_iff _ _).mpr ⟨logical.symm, bit7.trans bit7'.symm, flags.symm,
    reserved.trans reserved'.symm, top.trans top'.symm, fun hp => ?_⟩⟩
  rw [physical, usedPhysical, if_pos (p ▸ hp)]

/-- R182: `addrbytes` gives the bytes of the address a descriptor names: it looks at nothing that the name ignores. -/
theorem addrbytes_of_namesAddress {a : Word} {role : Role} {bs : List Byte} (i : Nat) (h : NamesAddress a role bs) :
    addrbytes i a = .ok bs := by
  obtain ⟨d, form, same⟩ := h
  obtain ⟨⟨top, reserved, bit7⟩, out⟩ := addrForm_addrbytes i form
  obtain ⟨logical, bit7', flags, reserved', top', physical⟩ := (namesMask_iff a d).mp same
  have clear : ReservedClear a := ⟨top'.trans top, reserved'.trans reserved, bit7'.trans bit7⟩
  rw [addrbytes_flags i ⟨top, reserved, bit7⟩] at out
  rw [addrbytes_flags i clear, logical, flags]
  rw [getLsbD_p] at physical
  split_ifs at out ⊢ with one two four <;> cases out
  · rfl
  · rw [physical (by rw [two]; rfl)]
  · rw [physical (by rw [four]; rfl)]

/-- R182: the one error of `addrbytes`. -/
theorem addrbytes_cases (i : Nat) (a : Word) :
    (∃ bs, addrbytes i a = .ok bs) ∨ addrbytes i a = .error (.argumentError i a.toNat) := by
  by_cases clear : ReservedClear a
  · rw [addrbytes_flags i clear]
    split_ifs
    case neg => exact .inr rfl
    all_goals exact .inl ⟨_, rfl⟩
  · exact .inr (addrbytes_reserved i clear)

/-- R182: any other descriptor is refused. -/
theorem addrbytes_unnamed {a : Word} (i : Nat) (unnamed : ∀ role bs, ¬ NamesAddress a role bs) :
    Raises (addrbytes i a) 8 i a.toNat := by
  obtain ⟨bs, accepted⟩ | refused := addrbytes_cases i a
  · exact absurd (namesAddress_of_addrbytes accepted) (unnamed _ bs)
  · rw [refused]
    exact raises_argumentError _ _

/-- R182: the operand with LEN set. -/
theorem setLen_eq (a : Word) {n : Nat} (small : n < 8) :
    (a &&& 0x0003FFFF#32) ||| BitVec.ofNat 32 (2 ^ 24 * n) = 0#5 ++ BitVec.ofNat 3 n ++ 0#6 ++ a.extractLsb' 0 18 := by
  have low : a &&& 0x0003FFFF#32 = (0#14 : BitVec 14) ++ a.extractLsb' 0 18 := by
    apply BitVec.eq_of_toNat_eq
    rw [BitVec.toNat_and, toNat_append_eq_add, BitVec.extractLsb'_toNat]
    exact (Nat.and_two_pow_sub_one_eq_mod _ 18).trans (by simp)
  have high : BitVec.ofNat 32 (2 ^ 24 * n) = (0#5 ++ BitVec.ofNat 3 n ++ 0#6) ++ 0#18 := by
    interval_cases n <;> rfl
  rw [low, high, BitVec.or_append]
  simp

/-- Settles O48: a descriptor that names an address gives its bytes, and only such a one gives bytes. -/
theorem addrEncEmitsTheAddress : Obligations.AddrEncEmitsTheAddress := by
  intro s legal
  refine ⟨fun role bs named => exec_gives legal ?_, fun unnamed =>
    failsWith_of_raises legal (addrbytes_unnamed 0 unnamed).bind⟩
  obtain ⟨d, form, -⟩ := id named
  rw [ruleOf, addrencRule, addrbytes_of_namesAddress 0 named, ok_bind, setLen_eq _ (addrForm_length_lt form)]

/-! ### The scan for the end of an address -/

section Scan

variable {x z even : List Byte} {k i fuel : Nat} {b last : Byte}

theorem addrScan_cons (h : Remaining x (k + i) (b :: z)) :
    addrScan x k (fuel + 1) i = if b.getLsbD 0 then .ok (some (i + 1)) else addrScan x k fuel (i + 1) := by
  rw [addrScan, if_neg (by have := h.length; rw [List.length_cons] at this; omega), h.byteAt_eq]

theorem addrScan_nil (h : Remaining x (k + i) []) :
    addrScan x k (fuel + 1) i = .error (.insufficientData (k + i + 1) (k + i)) := by
  have size : x.length = k + i := h.length
  rw [addrScan, if_pos size.le, size]

/-- R183: the scan passes the bytes with bit 0 clear. -/
theorem addrScan_even (even0 : ∀ b ∈ even, b.getLsbD 0 = false) (h : Remaining x (k + i) (even ++ z)) :
    addrScan x k (even.length + fuel) i = addrScan x k fuel (i + even.length) := by
  induction even generalizing i with
  | nil => simp
  | cons b even ih =>
    have next := ih (i := i + 1) (fun c hc => even0 c (List.mem_cons_of_mem _ hc)) h.tail
    have first : ¬ b.getLsbD 0 = true := ne_true_of_eq_false (even0 b List.mem_cons_self)
    rw [List.length_cons, Nat.add_right_comm, addrScan_cons h, if_neg first, next, Nat.add_assoc, Nat.add_comm 1]

/-- R183: the scan finds the end-of-address bit. -/
theorem addrScan_found (even0 : ∀ b ∈ even, b.getLsbD 0 = false) (hl : last.getLsbD 0 = true) (short : even.length < 4)
    (h : Remaining x k (even ++ [last] ++ z)) : addrScan x k 4 0 = .ok (some (even.length + 1)) := by
  obtain ⟨fuel, hf⟩ : ∃ fuel, 4 = even.length + (fuel + 1) := ⟨3 - even.length, by omega⟩
  rw [List.append_assoc] at h
  rw [hf, addrScan_even even0 (i := 0) h, addrScan_cons (by rw [Nat.zero_add]; exact h.after), if_pos hl, Nat.zero_add]

/-- R183: the list ends before the scan does. -/
theorem addrScan_cut (even0 : ∀ b ∈ even, b.getLsbD 0 = false) (short : even.length < 4) (h : Remaining x k even) :
    addrScan x k 4 0 = .error (.insufficientData (k + even.length + 1) (k + even.length)) := by
  obtain ⟨fuel, hf⟩ : ∃ fuel, 4 = even.length + (fuel + 1) := ⟨3 - even.length, by omega⟩
  rw [← List.append_nil even] at h
  rw [hf, addrScan_even even0 (i := 0) h, addrScan_nil (by rw [Nat.zero_add]; exact h.after), Nat.zero_add]

/-- R183: none of the four bytes has bit 0 set. -/
theorem addrScan_endless (even0 : ∀ b ∈ even, b.getLsbD 0 = false) (four : even.length = 4)
    (h : Remaining x k (even ++ z)) : addrScan x k 4 0 = .ok none := by
  have scan := addrScan_even (fuel := 0) even0 (i := 0) h
  rwa [four] at scan

end Scan

/-! ### The bytes of an address -/

section AddrByte

variable {v : Nat} (h : v < 128) (last : Bool)
include h

theorem toNat_addrByte : (addrByte v last).toNat = 2 * v + last.toNat := by
  have := last.toNat_lt
  rw [addrByte, BitVec.toNat_ofNat, Nat.mod_eq_of_lt (by omega)]

theorem addrByte_half : (addrByte v last).toNat / 2 = v := by
  have := last.toNat_lt
  rw [toNat_addrByte h]
  omega

theorem addrByte_last : (addrByte v last).getLsbD 0 = last := by
  rw [BitVec.getLsbD, Nat.testBit_zero, toNat_addrByte h]
  cases last <;> simp

end AddrByte

/-- R181, R184: only the last byte of an address has bit 0 set. -/
theorem addrForm_ends {role : Role} {bs : List Byte} {d : Word} (h : AddrForm role bs d) :
    ∃ even last, bs = even ++ [last] ∧ (∀ b ∈ even, b.getLsbD 0 = false) ∧ last.getLsbD 0 = true := by
  obtain ⟨l, p, hl, hp, ⟨rfl, rfl⟩ | ⟨rfl, rfl, rfl⟩ | ⟨rfl, rfl, rfl⟩⟩ := addrForm_iff.mp h
  · exact ⟨[], _, rfl, nofun, addrByte_last hl true⟩
  · exact ⟨[addrByte l false], _, rfl, by simpa using addrByte_last hl false, addrByte_last hp true⟩
  · exact ⟨[0, addrByte l false, 0], _, rfl, by simpa using addrByte_last hl false, addrByte_last hp true⟩

/-! ### H.ADDRDEC -/

section Addrdec

variable {x : List Byte} {k : Nat} {role : Role}

/-- R183: the scan finds the end of an address. -/
theorem addrScan_form {bs y : List Byte} {d : Word} (form : AddrForm role bs d) (h : Remaining x k (bs ++ y)) :
    addrScan x k 4 0 = .ok (some bs.length) := by
  have short : bs.length ≤ 4 := by cases form <;> simp
  obtain ⟨even, last, rfl, even0, hl⟩ := addrForm_ends form
  rw [List.length_append, List.length_singleton] at short ⊢
  exact addrScan_found even0 hl short h

/-- R183: the checks after the scan, and the descriptor of each form. -/
theorem addrdec_of_scan {n : Nat} (scan : addrScan x k 4 0 = .ok (some n)) :
    addrdec x k role =
      if n = 3 then .error (.addressError 3 0)
      else if role = .client ∧ n ≠ 1 then .error (.addressError n 0)
      else if n = 1 then .ok (addrDescriptor ((byteAt x k).toNat / 2) none role false 1, 1)
      else if n = 2 then
        .ok (addrDescriptor ((byteAt x k).toNat / 2) (some ((byteAt x (k + 1)).toNat / 2)) role false 2, 2)
      else if byteAt x k ≠ 0 ∨ (byteAt x (k + 2)).toNat / 2 ≠ 0 then .error (.addressError 4 1)
      else
        .ok (addrDescriptor ((byteAt x (k + 1)).toNat / 2) (some ((byteAt x (k + 3)).toNat / 2)) role true 4, 4) := by
  rw [addrdec, scan, ok_bind]
  simp only [raiseIf_bind, Nat.add_zero]

/-- R180: the descriptor in terms of its fields. -/
theorem addrDescriptor_eq (l : Nat) (p : Option Nat) (role : Role) (e : Bool) (n : Nat) :
    addrDescriptor l p role e n =
      addressWord l (p.getD 0) (p.isSome.toNat + 2 * role.bit.toNat + 4 * e.toNat) n := by
  rw [addrDescriptor, addressWord]
  congr 1
  omega

/-- R183: an address of the role, wherever it begins. -/
theorem addrdec_form {bs y : List Byte} {d : Word} (form : AddrForm role bs d) (h : Remaining x k (bs ++ y)) :
    addrdec x k role = .ok (d, bs.length) := by
  obtain ⟨l, p, hl, hp, ⟨rfl, rfl⟩ | ⟨rfl, rfl, rfl⟩ | ⟨rfl, rfl, rfl⟩⟩ := addrForm_iff.mp form
  · have first : byteAt x k = addrByte l true := h.byteAt_eq
    rw [addrdec_of_scan (addrScan_form form h), first, addrByte_half hl]
    simp [addrDescriptor_eq]
  · have first : byteAt x k = addrByte l false := h.byteAt_eq
    have second : byteAt x (k + 1) = addrByte p true := h.tail.byteAt_eq
    rw [addrdec_of_scan (addrScan_form form h), first, second, addrByte_half hl, addrByte_half hp]
    simp [addrDescriptor_eq, Role.bit]
  · have first : byteAt x k = 0 := h.byteAt_eq
    have second : byteAt x (k + 1) = addrByte l false := h.tail.byteAt_eq
    have third : byteAt x (k + 2) = 0 := h.tail.tail.byteAt_eq
    have fourth : byteAt x (k + 3) = addrByte p true := h.tail.tail.tail.byteAt_eq
    rw [addrdec_of_scan (addrScan_form form h), first, second, third, fourth, addrByte_half hl, addrByte_half hp]
    simp [addrDescriptor_eq, Role.bit]

/-- R183: the errors of `addrdec`. -/
theorem addrdec_fault {y : List Byte} {code : Byte} {d0 d1 : Nat} (fault : AddrFault role k y code d0 d1)
    (h : Remaining x k y) : Raises (addrdec x k role) code d0 d1 := by
  cases fault with
  | cut _ even0 short =>
    rw [addrdec, addrScan_cut even0 short h]
    exact raises_insufficientData _ _
  | endless even rest even0 four =>
    rw [addrdec, addrScan_endless even0 four h]
    exact raises_addressError _ _
  | three even last rest even0 hl two =>
    rw [addrdec_of_scan (addrScan_found even0 hl (by omega) h), if_pos (by rw [two])]
    exact raises_addressError _ _
  | client even last rest even0 hl hr long =>
    rw [addrdec_of_scan (addrScan_found even0 hl (by omega) h), if_neg (by omega), if_pos ⟨hr, by omega⟩]
    exact raises_addressError _ _
  | upper even last rest even0 hl hr three nonzero =>
    obtain ⟨b, c, d, rfl⟩ := List.length_eq_three.mp three
    have first : byteAt x k = b := h.byteAt_eq
    have third : byteAt x (k + 2) = d := h.tail.tail.byteAt_eq
    have half : ∀ d : Byte, d.getLsbD 0 = false → d ≠ 0 → d.toNat / 2 ≠ 0 := by decide
    have bad : b ≠ 0 ∨ d.toNat / 2 ≠ 0 := nonzero.imp_right (half d (even0 d (by simp)))
    rw [addrdec_of_scan (addrScan_found even0 hl (by simp) h), first, third, if_neg (by simp), if_neg (by simp [hr]),
      if_neg (by simp), if_neg (by simp), if_pos bad]
    exact raises_addressError _ _

end Addrdec

/-- Settles O49: `addrdec` reads every form of R181's table (`addrdec_form`). -/
theorem addrDecReadsAnAddress : Obligations.AddrDecReadsAnAddress := by
  intro s role bs rest d legal form input
  refine exec_gives legal ?_
  rw [ruleOf, addrdecRule, addrdec_form form (input ▸ .zero _ : Remaining s.input 0 (bs ++ rest)), ok_bind]

/-- Settles O50: each clause is a fault that `addrdec` raises (`addrdec_fault`). -/
theorem addrDecErrors : Obligations.AddrDecErrors := by
  intro s role even rest last legal even0
  have fail {y : List Byte} {code : Byte} {d0 d1 : Nat} (input : s.input = y) (fault : AddrFault role 0 y code d0 d1) :
      FailsWith (.hAddrdec role) s code d0 d1 :=
    failsWith_of_raises legal (addrdec_fault fault (input ▸ .zero _)).bind
  refine ⟨fun input short => ?_, fun input four => fail input (.endless even rest even0 four), fun input hl =>
    ⟨fun two => fail input (.three even last rest even0 hl two),
      fun hr long => fail input (.client even last rest even0 hl hr long),
      fun hr three nonzero => fail input (.upper even last rest even0 hl hr three nonzero)⟩⟩
  have failed := fail input (.cut even even0 short)
  rwa [Nat.zero_add] at failed

/-! ### The round trip of an address -/

/-- R184: the descriptor that comes back, field by field. -/
theorem append_eq_decodedAddress (a : Word) {n : Nat} (small : n < 8) :
    0#5 ++ BitVec.ofNat 3 n ++ 0#6 ++ a.extractLsb' 15 3 ++ (if a.getLsbD 15 then a.extractLsb' 8 7 else 0#7) ++ 0#1
        ++ a.extractLsb' 0 7 = decodedAddress a n := by
  have physical : (if a.getLsbD 15 then a.extractLsb' 8 7 else 0#7).toNat = usedPhysical a := by
    unfold usedPhysical
    split <;> rfl
  apply BitVec.eq_of_toNat_eq
  rw [decodedAddress, toNat_addressWord (bitsOf_lt a 0 7) (usedPhysical_lt a) (bitsOf_lt a 15 3) small]
  simp only [toNat_append_eq_add, BitVec.toNat_ofNat, physical, bitsOf]
  omega

/-- R184: the terminal bit. -/
theorem addrForm_terminal {role : Role} {bs : List Byte} {d : Word} (h : AddrForm role bs d) {k : Nat}
    (hk : k < bs.length) : (bs.getD k 0).getLsbD 0 = true ↔ k + 1 = bs.length := by
  obtain ⟨even, last, rfl, even0, hl⟩ := addrForm_ends h
  rw [List.length_append, List.length_singleton] at hk ⊢
  rcases Nat.lt_succ_iff_lt_or_eq.mp hk with inside | rfl
  · have bit : (even[k]).getLsbD 0 = false := even0 _ (List.getElem_mem inside)
    rw [List.getD_append _ _ _ _ inside, List.getD_eq_getElem _ _ inside, bit]
    simp only [Bool.false_eq_true, false_iff]
    omega
  · rw [List.getD_append_right _ _ _ _ (Nat.le_refl _), Nat.sub_self]
    exact iff_of_true hl rfl

/-- Settles O51: `addrbytes` gives a form of R181's table (`addrForm_of_addrbytes`), which `addrdec` reads. -/
theorem addressInvariants : Obligations.AddressInvariants := by
  intro i a bs h
  obtain ⟨-, form⟩ := addrForm_of_addrbytes h
  have read := addrdec_form (y := []) form (by rw [List.append_nil]; exact .zero bs)
  exact ⟨fun k => addrForm_terminal form, _, read, (append_eq_decodedAddress a (addrForm_length_lt form)).symm⟩

/-! ### The format field -/

/-- R185: a format field gives back its length and its segmentation flag. -/
theorem formatFields_formatField {len : Nat} (seg : Bool) (fits : len < 2 ^ 11) :
    formatFields (formatField seg len) = .ok (len, seg) := by
  have type : formatField seg len / 2 ^ 12 = 0xA := by
    have := seg.toNat_lt
    rw [formatField]
    omega
  have length : formatField seg len % 2 ^ 11 = len := by
    rw [formatField]
    omega
  have flag : (formatField seg len).testBit 11 = seg := by
    rw [Nat.testBit_eq_decide_div_mod_eq, formatField]
    cases seg <;> simp <;> omega
  rw [formatFields, raiseIf_bind, if_neg (not_not.mpr type), length, flag]

/-- R185: the two bytes of a format field, most significant first. -/
theorem fromBE_formatBytes (seg : Bool) (len : BitVec 11) :
    fromBE [(0xA#4 ++ BitVec.ofBool seg ++ len).extractLsb' 8 8, len.extractLsb' 0 8] = formatField seg len.toNat := by
  have := seg.toNat_lt
  have := len.isLt
  simp only [fromBE_pair, toNat_append_eq_add, BitVec.extractLsb'_toNat, Nat.shiftRight_eq_div_pow, BitVec.toNat_ofBool,
    BitVec.toNat_ofNat, formatField]
  omega

/-- R186: what H.FMTENC emits. -/
theorem beBytes_formatField (seg : Bool) (len : BitVec 11) :
    beBytes 2 (formatField seg len.toNat)
      = [(0xA#4 ++ BitVec.ofBool seg ++ len).extractLsb' 8 8, len.extractLsb' 0 8] := by
  rw [← fromBE_formatBytes]
  exact beBytes_fromBE [(0xA#4 ++ BitVec.ofBool seg ++ len).extractLsb' 8 8, len.extractLsb' 0 8]

/-- R187: the type, the flag and the length in two bytes. -/
theorem toNat_formatBytes {b : Byte} (c : Byte) (type : b.extractLsb' 4 4 = 0xA#4) :
    (b ++ c).toNat = formatField (b.getLsbD 3) (b.extractLsb' 0 3 ++ c).toNat := by
  have byte : ∀ b : Byte, b.extractLsb' 4 4 = 0xA#4 →
      b.toNat = 0xA0 + 8 * (b.getLsbD 3).toNat + (b.extractLsb' 0 3).toNat := by decide
  rw [toNat_append_eq_add, toNat_append_eq_add, byte b type, formatField]
  omega

/-- R187: the type 0xA. -/
theorem formatFields_bytes {b : Byte} (c : Byte) (type : b.extractLsb' 4 4 = 0xA#4) :
    formatFields (fromBE [b, c]) = .ok ((b.extractLsb' 0 3 ++ c).toNat, b.getLsbD 3) := by
  rw [fromBE_pair, toNat_formatBytes c type]
  exact formatFields_formatField _ (BitVec.isLt _)

/-- R187: another type than 0xA. -/
theorem formatFields_badType {b : Byte} (c : Byte) (type : b.extractLsb' 4 4 ≠ 0xA#4) :
    Raises (formatFields (fromBE [b, c])) 14 (b ++ c).toNat 0 := by
  have high : (b ++ c).toNat / 2 ^ 12 ≠ 0xA := by
    intro same
    refine type (BitVec.eq_of_toNat_eq ?_)
    rw [toNat_append_eq_add] at same
    rw [BitVec.extractLsb'_toNat, Nat.shiftRight_eq_div_pow, BitVec.toNat_ofNat]
    have := c.isLt
    omega
  rw [fromBE_pair, formatFields, raiseIf_bind, if_pos high]
  exact raises_malformed _

/-- R187: H.FMTDEC reads the first two bytes. -/
theorem fmtdecRule_pair (b c : Byte) (rest : List Byte) :
    fmtdecRule ([b, c] ++ rest) = formatFields (fromBE [b, c]) >>= fun (len, seg) =>
      .ok { consumed := 2, r0 := BitVec.ofNat 32 len, r1 := BitVec.ofNat 32 seg.toNat } := by
  rw [fmtdecRule, need_fits (by simp)]
  rfl

/-- R186: S and the length in the operand. -/
theorem fmtencRule_fields (seg : Bool) (len : BitVec 11) :
    fmtencRule (0#20 ++ BitVec.ofBool seg ++ len) =
      .ok { out := beBytes 2 (formatField seg len.toNat), r0 := BitVec.ofNat 32 (formatField seg len.toNat) } := by
  have small := seg.toNat_lt
  have value : (0#20 ++ BitVec.ofBool seg ++ len).toNat = 2 ^ 11 * seg.toNat + len.toNat := by
    simp only [toNat_append_eq_add, BitVec.toNat_ofNat, BitVec.toNat_ofBool]
    omega
  have flag : (0#20 ++ BitVec.ofBool seg ++ len).getLsbD 11 = seg := by
    rw [BitVec.getLsbD_append, BitVec.getLsbD_append]
    simp
  have length : bitsOf (0#20 ++ BitVec.ofBool seg ++ len) 0 11 = len.toNat := by
    rw [bitsOf_eq, value]
    omega
  have high : bitsOf (0#20 ++ BitVec.ofBool seg ++ len) 12 20 = 0 := by
    rw [bitsOf_eq, value]
    omega
  rw [fmtencRule, raiseIf_bind, if_neg (not_not.mpr high), flag, length]

/-- Settles O52: H.FMTENC emits the two bytes of the format field (`beBytes_formatField`), and H.FMTDEC reads its fields
in them (`formatFields_formatField`). -/
theorem formatFieldCommands : Obligations.FormatFieldCommands := by
  intro s legal
  refine ⟨fun len seg => ⟨fun operand => exec_gives legal ?_, fun rest input => exec_succeeds legal ?_ rfl⟩,
    fun wide => failsWith_of_raises legal ?_, fun short => failsWith_of_raises legal (need_raises short),
    fun b c rest input type => failsWith_of_raises legal ?_⟩
  · have word : BitVec.ofNat 32 (formatField seg len.toNat) = 0#16 ++ 0xA#4 ++ BitVec.ofBool seg ++ len := by
      apply BitVec.eq_of_toNat_eq
      have := seg.toNat_lt
      have := len.isLt
      simp only [toNat_append_eq_add, BitVec.toNat_ofNat, BitVec.toNat_ofBool, formatField]
      omega
    rw [ruleOf, operand, fmtencRule_fields, beBytes_formatField, word]
  · rw [ruleOf, input, fmtdecRule_pair, fromBE_formatBytes, formatFields_formatField seg len.isLt, ok_bind]
    simp only [BitVec.ofNat_toNat]
    cases seg <;> rfl
  · have high : bitsOf s.arg0 12 20 ≠ 0 := by
      have := s.arg0.isLt
      rw [bitsOf_eq]
      omega
    rw [ruleOf, fmtencRule, raiseIf_bind, if_pos high]
    exact raises_argumentError _ _
  · rw [ruleOf, input, fmtdecRule_pair]
    exact (formatFields_badType c type).bind

/-! ### The control byte -/

/-- R188 and R190: a control byte and its descriptor in the model's terms. -/
theorem ctlForm_iff {b : Byte} {ty : FrameType} {d : Word} :
    CtlForm b ty d ↔ ∃ ns nr pf, ns < 8 ∧ nr < 8 ∧ numbersFit ty ns nr = true ∧ b = controlByte ty ns nr pf ∧
      d = controlDescriptor ty ns nr pf := by
  have rr : ∀ nr < 8, ∀ pf : Bool, BitVec.ofNat 8 (1 + 0x20 * nr + 0x10 * pf.toNat) = controlByte .rr 0 nr pf := by
    decide
  have info : ∀ ns < 8, ∀ nr < 8, ∀ pf : Bool,
      BitVec.ofNat 8 (2 * ns + 0x20 * nr + 0x10 * pf.toNat) = controlByte .info ns nr pf := by decide
  constructor
  · intro h
    cases h with
    | snrm pf | ua pf | disc pf =>
      exact ⟨0, 0, pf, by decide, by decide, rfl, by cases pf <;> rfl, by cases pf <;> rfl⟩
    | rr nr pf hr => exact ⟨0, nr, pf, by decide, hr, rfl, rr nr hr pf, by simp [controlDescriptor, FrameType.code]⟩
    | info ns nr pf hs hr =>
      exact ⟨ns, nr, pf, hs, hr, rfl, info ns hs nr hr pf, by simp [controlDescriptor, FrameType.code]⟩
  · rintro ⟨ns, nr, pf, hs, hr, fit, rfl, rfl⟩
    cases ty with
    | snrm =>
      obtain ⟨rfl, rfl⟩ : ns = 0 ∧ nr = 0 := by simpa [numbersFit] using fit
      cases pf
      exacts [.snrm false, .snrm true]
    | ua =>
      obtain ⟨rfl, rfl⟩ : ns = 0 ∧ nr = 0 := by simpa [numbersFit] using fit
      cases pf
      exacts [.ua false, .ua true]
    | disc =>
      obtain ⟨rfl, rfl⟩ : ns = 0 ∧ nr = 0 := by simpa [numbersFit] using fit
      cases pf
      exacts [.disc false, .disc true]
    | rr =>
      obtain rfl : ns = 0 := by simpa [numbersFit] using fit
      rw [← rr nr hr pf]
      have form := CtlForm.rr nr pf hr
      simpa [controlDescriptor, FrameType.code] using form
    | info =>
      rw [← info ns hs nr hr pf]
      exact .info ns nr pf hs hr

/-- R190: a code that names a type is that type's. -/
theorem FrameType.eq_code {n : Nat} {ty : FrameType} (h : FrameType.ofCode n = some ty) : n = ty.code := by
  unfold FrameType.ofCode at h
  split at h
  case h_6 => cases h
  all_goals
    cases h
    rfl

theorem FrameType.ofCode_code (ty : FrameType) : FrameType.ofCode ty.code = some ty := by cases ty <;> rfl

theorem FrameType.code_lt (ty : FrameType) : ty.code < 8 := by cases ty <;> decide

/-- R190: TYPE, N(S), N(R), the poll/final bit, SEG and LLCDIR, with reserved bits between and above them. -/
theorem toNat_controlFields (v : Word) :
    v.toNat = bitsOf v 0 3 + 2 ^ 3 * (bitsOf v 3 1 + 2 ^ 1 * (bitsOf v 4 3 + 2 ^ 3 * (bitsOf v 7 1 + 2 ^ 1 *
      (bitsOf v 8 3 + 2 ^ 3 * (bitsOf v 11 1 + 2 ^ 1 * (bitsOf v 12 1 + 2 ^ 1 * (bitsOf v 13 2 + 2 ^ 2 *
        bitsOf v 15 17))))))) := by
  rw [← bitsOf_whole]
  simp only [bitsOf_add v 0 3 29, bitsOf_add v 3 1 28, bitsOf_add v 4 3 25, bitsOf_add v 7 1 24, bitsOf_add v 8 3 21,
    bitsOf_add v 11 1 20, bitsOf_add v 12 1 19, bitsOf_add v 13 2 17]

/-- R190: the reserved bits of a control descriptor are 0. -/
theorem reservedMask_iff (c : Word) :
    c &&& 0xFFFF8888#32 = 0 ↔ bitsOf c 3 1 = 0 ∧ bitsOf c 7 1 = 0 ∧ bitsOf c 11 1 = 0 ∧ bitsOf c 15 17 = 0 := by
  have fields := toNat_controlFields (c &&& 0xFFFF8888#32)
  simp (disch := decide) only [bitsOf_and_ones, bitsOf_and_zeros] at fields
  rw [← BitVec.toNat_inj, fields]
  simp

theorem bitsOf_controlDescriptor (ty : FrameType) {ns nr : Nat} (pf : Bool) (hs : ns < 8) (hr : nr < 8) :
    bitsOf (controlDescriptor ty ns nr pf) 0 3 = ty.code ∧ bitsOf (controlDescriptor ty ns nr pf) 3 1 = 0 ∧
    bitsOf (controlDescriptor ty ns nr pf) 4 3 = ns ∧ bitsOf (controlDescriptor ty ns nr pf) 7 1 = 0 ∧
    bitsOf (controlDescriptor ty ns nr pf) 8 3 = nr ∧ bitsOf (controlDescriptor ty ns nr pf) 11 1 = 0 ∧
    bitsOf (controlDescriptor ty ns nr pf) 12 1 = pf.toNat ∧ bitsOf (controlDescriptor ty ns nr pf) 13 2 = 0 ∧
    bitsOf (controlDescriptor ty ns nr pf) 15 17 = 0 := by
  have hty := ty.code_lt
  have hpf := pf.toNat_lt
  have word : (controlDescriptor ty ns nr pf).toNat = ty.code + 16 * ns + 256 * nr + 2 ^ 12 * pf.toNat := by
    rw [controlDescriptor, BitVec.toNat_ofNat, Nat.mod_eq_of_lt (by omega)]
  simp only [bitsOf_eq, word]
  omega

/-- R190: the control descriptor `c` with SEG and LLCDIR cleared. -/
theorem controlMask_iff (c : Word) (ty : FrameType) {ns nr : Nat} (pf : Bool) (hs : ns < 8) (hr : nr < 8) :
    c &&& 0xFFFF9FFF#32 = controlDescriptor ty ns nr pf ↔
      c &&& 0xFFFF8888#32 = 0 ∧ bitsOf c 0 3 = ty.code ∧ bitsOf c 4 3 = ns ∧ bitsOf c 8 3 = nr ∧ c.getLsbD 12 = pf := by
  obtain ⟨type, bit3, seq, bit7, ack, bit11, final, ignored, top⟩ := bitsOf_controlDescriptor ty pf hs hr
  have bit : c.getLsbD 12 = pf ↔ bitsOf c 12 1 = pf.toNat := by
    rw [bitsOf_one]
    cases pf <;> cases c.getLsbD 12 <;> decide
  rw [reservedMask_iff, bit]
  constructor
  · intro same
    have field {lo len : Nat} (ones : (0xFFFF9FFF#32).extractLsb' lo len = BitVec.allOnes len) :
        bitsOf c lo len = bitsOf (controlDescriptor ty ns nr pf) lo len := by rw [← same, bitsOf_and_ones ones]
    exact ⟨⟨(field (by decide)).trans bit3, (field (by decide)).trans bit7, (field (by decide)).trans bit11,
      (field (by decide)).trans top⟩, (field (by decide)).trans type, (field (by decide)).trans seq,
      (field (by decide)).trans ack, (field (by decide)).trans final⟩
  · rintro ⟨⟨c3, c7, c11, c15⟩, c0, c4, c8, c12⟩
    refine BitVec.eq_of_toNat_eq ?_
    rw [toNat_controlFields, toNat_controlFields (controlDescriptor ty ns nr pf)]
    simp (disch := decide) only [bitsOf_and_ones, bitsOf_and_zeros, *]

/-- R191: `ctlbyte` accepts the descriptors that name a control byte, and gives that byte. -/
theorem ctlbyte_ok_iff {i : Nat} {c : Word} {ty : FrameType} {b : Byte} :
    ctlbyte i c = .ok (ty, b) ↔ NamesControl c b ty := by
  rw [NamesControl, ctlForm_iff]
  constructor
  · intro h
    obtain ⟨clear, h⟩ := raiseIf_bind_ok h
    dsimp only at h
    split at h
    · cases h
    · next ty' hty =>
      obtain ⟨fit, h⟩ := raiseIf_bind_ok h
      cases h
      exact ⟨_, _, _, bitsOf_lt c 4 3, bitsOf_lt c 8 3, by simpa using fit, rfl,
        (controlMask_iff c ty _ (bitsOf_lt c 4 3) (bitsOf_lt c 8 3)).mpr
          ⟨not_not.mp clear, FrameType.eq_code hty, rfl, rfl, rfl⟩⟩
  · rintro ⟨ns, nr, pf, hs, hr, fit, rfl, same⟩
    obtain ⟨clear, hty, rfl, rfl, rfl⟩ := (controlMask_iff c ty pf hs hr).mp same
    rw [ctlbyte, raiseIf_bind, if_neg (not_not.mpr clear), hty, FrameType.ofCode_code]
    dsimp only
    rw [raiseIf_bind, if_neg (by simp [fit])]

/-- R191: the one error of `ctlbyte`. -/
theorem ctlbyte_cases (i : Nat) (c : Word) :
    (∃ ty b, ctlbyte i c = .ok (ty, b)) ∨ ctlbyte i c = .error (.argumentError i c.toNat) := by
  rw [ctlbyte, raiseIf_bind]
  split
  · exact .inr rfl
  · cases FrameType.ofCode (bitsOf c 0 3) with
    | none => exact .inr rfl
    | some ty =>
      dsimp only
      rw [raiseIf_bind]
      split
      · exact .inr rfl
      · exact .inl ⟨_, _, rfl⟩

/-- R191: any other descriptor is refused. -/
theorem ctlbyte_unnamed {c : Word} (i : Nat) (unnamed : ∀ b ty, ¬ NamesControl c b ty) :
    Raises (ctlbyte i c) 8 i c.toNat := by
  obtain ⟨ty, b, accepted⟩ | refused := ctlbyte_cases i c
  · exact absurd (ctlbyte_ok_iff.mp accepted) (unnamed b ty)
  · rw [refused]
    exact raises_argumentError _ _

/-- R193: `ctldec` reads every control byte of R188's table. -/
theorem ctldec_form {b : Byte} {ty : FrameType} {d : Word} (h : CtlForm b ty d) : ctldec b = .ok (ty, d) := by
  obtain ⟨ns, nr, pf, hs, hr, fit, rfl, rfl⟩ := ctlForm_iff.mp h
  cases ty with
  | snrm | ua | disc =>
    obtain ⟨rfl, rfl⟩ : ns = 0 ∧ nr = 0 := by simpa [numbersFit] using fit
    cases pf <;> rfl
  | rr =>
    obtain rfl : ns = 0 := by simpa [numbersFit] using fit
    interval_cases nr <;> cases pf <;> rfl
  | info => interval_cases ns <;> interval_cases nr <;> cases pf <;> rfl

/-- R193: a control byte that `ctldec` accepts is one of R188's table. -/
theorem ctlForm_of_ctldec {b : Byte} {ty : FrameType} {d : Word} (h : ctldec b = .ok (ty, d)) : CtlForm b ty d := by
  have info : ∀ b : Byte, b.getLsbD 0 = false →
      b = controlByte .info (b.extractLsb' 1 3).toNat (b.extractLsb' 5 3).toNat (b.getLsbD 4) := by decide
  have rr : ∀ b : Byte, (b.extractLsb' 0 4).toNat = 1 →
      b = controlByte .rr 0 (b.extractLsb' 5 3).toNat (b.getLsbD 4) := by decide
  have snrm : ∀ b : Byte, b &&& 0xEF#8 = 0x83#8 → b = controlByte .snrm 0 0 (b.getLsbD 4) := by decide
  have ua : ∀ b : Byte, b &&& 0xEF#8 = 0x63#8 → b = controlByte .ua 0 0 (b.getLsbD 4) := by decide
  have disc : ∀ b : Byte, b &&& 0xEF#8 = 0x43#8 → b = controlByte .disc 0 0 (b.getLsbD 4) := by decide
  rw [ctlForm_iff]
  unfold ctldec at h
  dsimp only at h
  split_ifs at h with h1 h2 h3 h4 h5 <;> cases h
  · exact ⟨_, _, _, BitVec.isLt _, BitVec.isLt _, rfl, info b h1, rfl⟩
  · exact ⟨_, _, _, by decide, BitVec.isLt _, rfl, rr b h2, rfl⟩
  · exact ⟨_, _, _, by decide, by decide, rfl, snrm b h3, rfl⟩
  · exact ⟨_, _, _, by decide, by decide, rfl, ua b h4, rfl⟩
  · exact ⟨_, _, _, by decide, by decide, rfl, disc b h5, rfl⟩

/-- R193: the one error of `ctldec`. -/
theorem ctldec_cases (b : Byte) :
    (∃ ty d, ctldec b = .ok (ty, d)) ∨ ctldec b = .error (.unknownEnumValue b.toNat) := by
  unfold ctldec
  dsimp only
  split_ifs
  case neg => exact .inr rfl
  all_goals exact .inl ⟨_, _, rfl⟩

/-- R193: any other control byte is refused. -/
theorem ctldec_unknown {b : Byte} (unknown : ∀ ty d, ¬ CtlForm b ty d) : Raises (ctldec b) 6 b.toNat 0 := by
  obtain ⟨ty, d, accepted⟩ | refused := ctldec_cases b
  · exact absurd (ctlForm_of_ctldec accepted) (unknown ty d)
  · rw [refused]
    exact raises_unknownEnumValue _

theorem ctldecRule_cons (b : Byte) (rest : List Byte) :
    ctldecRule (b :: rest) = ctldec b >>= fun (_, d) => .ok { consumed := 1, r0 := d } := by
  rw [ctldecRule, need_fits (by simp)]
  rfl

/-- Settles O53: `ctlbyte` and `ctldec` accept exactly the forms of R188's table. -/
theorem controlByteCommands : Obligations.ControlByteCommands := by
  intro s legal
  refine ⟨fun b ty named => exec_gives legal ?_,
    fun unnamed => failsWith_of_raises legal (ctlbyte_unnamed 0 unnamed).bind,
    fun empty => failsWith_of_raises legal ?_,
    fun b rest input => ⟨fun ty d form => exec_gives legal ?_, fun unknown => failsWith_of_raises legal ?_⟩⟩
  · rw [ruleOf, ctlencRule, ctlbyte_ok_iff.mpr named, ok_bind]
  · rw [ruleOf, empty]
    exact need_raises Nat.zero_lt_one
  · rw [ruleOf, input, ctldecRule_cons, ctldec_form form, ok_bind]
  · rw [ruleOf, input, ctldecRule_cons]
    exact (ctldec_unknown unknown).bind

/-! ### H.FRMENC -/

/-- R196: the length field of the frame is the length of its body. -/
theorem frameLength_eq (dst src info : List Byte) : frameLength dst src info = bodyLength dst src info := by
  cases info <;> simp [frameLength, bodyLength]

/-- R194: the header begins with the format field. -/
theorem headerBytes_eq (seg : Bool) (dst src : List Byte) (ctl : Byte) (info : List Byte) :
    headerBytes seg dst src ctl info
      = beBytes 2 (formatField seg (bodyLength dst src info)) ++ dst ++ src ++ [ctl] := by
  have low (f : Nat) : BitVec.ofNat 8 (f % 256) = BitVec.ofNat 8 f := BitVec.eq_of_toNat_eq (by simp)
  simp only [headerBytes, low, beBytes, formatField, pow_one, pow_zero, Nat.div_one, Nat.reducePow]

/-- R198: the body is what the FCS covers, and the FCS. -/
theorem frameBody_eq (seg : Bool) (dst src : List Byte) (ctl : Byte) (info : List Byte) :
    frameBody seg dst src ctl info
      = coveredBytes seg dst src ctl info ++ crc16 (coveredBytes seg dst src ctl info) false := by
  rw [frameBody, coveredBytes, headerBytes_eq, frameLength_eq]
  cases info <;> rfl

/-- R197, R198: the information of a frame to encode. -/
theorem frameInfo_eq_ok {ty : FrameType} {c : Word} {x info : List Byte} :
    frameInfo ty c x = .ok info ↔ EncodesInfo ty c x info := by
  have none : (raiseIf (x.length ≠ 0) (.argumentError 2 c.toNat) >>= fun _ => .ok []) = .ok info ↔
      x = [] ∧ info = [] := by
    rw [raiseIf_bind]
    cases x <;> simp [eq_comm]
  cases ty with
  | snrm | disc | rr => exact none
  | ua | info => exact (Except.ok.injEq _ _).to_iff.trans eq_comm

/-- R198: what follows the checks of the three descriptors. -/
theorem frmencRule_named {ad as c : Word} {x dst src : List Byte} {ctl : Byte} {ty : FrameType} {dr sr : Role}
    (hd : NamesAddress ad dr dst) (hs : NamesAddress as sr src) (hc : NamesControl c ctl ty) :
    frmencRule ad as c x = frameInfo ty c x >>= fun info =>
      if 2047 < bodyLength dst src info then .error (.lengthOverflow (bodyLength dst src info) 2047)
      else .ok {
        out := frameBytes (c.getLsbD 13) dst src ctl info
        consumed := x.length
        r0 := BitVec.ofNat 32 (bodyLength dst src info)
        r1 := if info = [] then 0 else 1 } := by
  have hcs (info : List Byte) : (if info.length > 0 then (1 : Word) else 0) = if info = [] then 0 else 1 := by
    cases info <;> rfl
  rw [frmencRule, addrbytes_of_namesAddress 0 hd, ok_bind, addrbytes_of_namesAddress 1 hs, ok_bind,
    ctlbyte_ok_iff.mpr hc, ok_bind]
  simp only [raiseIf_bind, frameLength_eq, frameBody_eq, hcs, frameBytes, List.append_assoc]
  rfl

/-- Settles O54: the descriptors name their bytes, and the rule builds the frame of them (`frmencRule_named`). -/
theorem frmEncBuildsTheFrame : Obligations.FrmEncBuildsTheFrame := by
  intro s dr sr dst src info ctl ty legal hd hs hc hi fits
  refine exec_gives legal ?_
  rw [ruleOf, frmencRule_named hd hs hc, frameInfo_eq_ok.mpr hi, ok_bind, if_neg fits.not_gt]

/-- Settles O55: each clause is a check of the rule that fails after those before it pass. -/
theorem frmEncErrors : Obligations.FrmEncErrors := by
  intro s legal
  refine ⟨fun unnamed => failsWith_of_raises legal (addrbytes_unnamed 0 unnamed).bind,
    fun dr dst hd => ⟨fun unnamed => failsWith_of_raises legal ?_,
      fun sr src hs => ⟨fun unnamed => failsWith_of_raises legal ?_,
        fun ctl ty hc => ⟨fun bare input => failsWith_of_raises legal ?_,
          fun info hi long => failsWith_of_raises legal ?_⟩⟩⟩⟩
  · rw [ruleOf, frmencRule, addrbytes_of_namesAddress 0 hd, ok_bind]
    exact (addrbytes_unnamed 1 unnamed).bind
  · rw [ruleOf, frmencRule, addrbytes_of_namesAddress 0 hd, ok_bind, addrbytes_of_namesAddress 1 hs, ok_bind]
    exact (ctlbyte_unnamed 2 unnamed).bind
  · have refused : frameInfo ty s.arg2 s.input = .error (.argumentError 2 s.arg2.toNat) := by
      have some : s.input.length ≠ 0 := mt List.length_eq_zero_iff.mp input
      rcases bare with rfl | rfl | rfl <;> rw [frameInfo, raiseIf_bind, if_pos some]
    rw [ruleOf, frmencRule_named hd hs hc, refused]
    exact (raises_argumentError (α := List Byte) _ _).bind
  · rw [ruleOf, frmencRule_named hd hs hc, frameInfo_eq_ok.mpr hi, ok_bind, if_pos long]
    exact ⟨_, rfl, rfl, rfl, rfl⟩

/-! ### The parts of H.FRMDEC -/

/-- R199, the last steps: the control byte, and the information field without its LLC header. -/
def decodeInfo (ctl : Byte) (hp : Bool) (info : List Byte) (seg : Bool) (dd sd : Word) (len : Nat) :
    Except CmdError Result := do
  let (ty, cd) ← ctldec ctl
  raiseIf (infoMisfit ty hp = true) (.malformed ctl.toNat)
  let (out, kind) := stripLlc ty info
  .ok { out := out
        consumed := len + 2
        r0 := dd
        r1 := sd
        r2 := cd ||| BitVec.ofNat 32 (2 ^ 13 * seg.toNat + 2 ^ 16 * kind)
        r3 := BitVec.ofNat 32 (len + 2 ^ 16 * hp.toNat) }

/-- R199: the steps after the header of `h` bytes. -/
def decodeContent (b : List Byte) (h : Nat) (seg : Bool) (dd sd : Word) : Except CmdError Result := do
  raiseIf (b.length < h + 2) (.insufficientData (h + 2) b.length)
  let rest := b.length - h
  raiseIf (rest = 3 ∨ rest = 4) (.malformed rest)
  let hp := decide (rest ≥ 5)
  if hp then checkCrc 0 (bytesAt b 0 h) (bytesAt b h 2) else .ok ()
  checkCrc 1 (bytesAt b 0 (b.length - 2)) (bytesAt b (b.length - 2) 2)
  decodeInfo (byteAt b (h - 1)) hp (if hp then bytesAt b (h + 2) (b.length - 2 - (h + 2)) else []) seg dd sd b.length

/-- R199: the steps after the flags. -/
def decodeBody (dr sr : Role) (b : List Byte) : Except CmdError Result := do
  raiseIf (b.length < 2) (.insufficientData 2 b.length)
  let (decl, seg) ← formatFields (fromBE (bytesAt b 0 2))
  raiseIf (decl ≠ b.length) (.lengthMismatch decl b.length)
  let (dd, dn) ← addrdec b 2 dr
  let (sd, sn) ← addrdec b (2 + dn) sr
  decodeContent b (2 + dn + sn + 1) seg dd sd

section Flags

variable {dr sr : Role}

/-- R199: which of the two flags are missing. -/
theorem missingFlags_flanked (b c : Byte) (body : List Byte) :
    missingFlags ([b] ++ body ++ [c]) = (if b = 0x7E then 0 else 1) + (if c = 0x7E then 0 else 2) := by
  simp [missingFlags, frameFlag, byteAt]

/-- R199: one byte lacks the closing flag at least. -/
theorem missingFlags_singleton (b : Byte) : missingFlags [b] = if b = 0x7E then 2 else 3 := by
  have shape : missingFlags [b] = (if b = 0x7E then 0 else 1) + 2 := by simp [missingFlags, frameFlag, byteAt]
  rw [shape]
  split <;> rfl

/-- R199: a flag is missing. -/
theorem frmdecRule_missing {x : List Byte} (missing : missingFlags x ≠ 0) :
    Raises (frmdecRule dr sr x) 5 (missingFlags x) 0 := by
  rw [frmdecRule, raiseIf_bind, if_pos missing]
  exact ⟨_, rfl, rfl, rfl, rfl⟩

/-- R199: between its two flags the frame has a body, which the rule decodes. -/
theorem frmdecRule_flagged (body : List Byte) :
    frmdecRule dr sr ([0x7E] ++ body ++ [0x7E]) = decodeBody dr sr body := by
  have present : missingFlags ([0x7E] ++ body ++ [0x7E]) = 0 := missingFlags_flanked _ _ _
  have size : ([0x7E] ++ body ++ [0x7E] : List Byte).length = body.length + 2 := by simp
  have between : bytesAt ([0x7E] ++ body ++ [0x7E]) 1 body.length = body := bytesAt_middle [0x7E] body [0x7E]
  rw [frmdecRule, raiseIf_bind, if_neg (not_not.mpr present), size]
  dsimp only
  rw [Nat.add_sub_cancel, between, decodeBody, raiseIf_bind, raiseIf_bind]
  refine if_congr Iff.rfl rfl (bind_congr fun ⟨decl, seg⟩ => ?_)
  dsimp only
  rw [raiseIf_bind, raiseIf_bind]
  by_cases same : decl = body.length
  · subst same
    rfl
  · rw [if_pos same, if_pos same]

end Flags

section Body

variable {dr sr : Role}

theorem decodeBody_short {b : List Byte} (short : b.length < 2) : Raises (decodeBody dr sr b) 1 2 b.length := by
  rw [decodeBody, raiseIf_bind, if_pos short]
  exact raises_insufficientData _ _

/-- R199: past its first check the body begins with the format field. -/
theorem decodeBody_format {format y : List Byte} (two : format.length = 2) :
    decodeBody dr sr (format ++ y) = formatFields (fromBE format) >>= fun (decl, seg) =>
      if decl ≠ (format ++ y).length then .error (.lengthMismatch decl (format ++ y).length)
      else addrdec (format ++ y) 2 dr >>= fun (dd, dn) => addrdec (format ++ y) (2 + dn) sr >>= fun (sd, sn) =>
        decodeContent (format ++ y) (2 + dn + sn + 1) seg dd sd := by
  have bytes : bytesAt (format ++ y) 0 2 = format := by
    rw [← two]
    exact (Remaining.zero _).bytesAt_eq
  rw [decodeBody, raiseIf_bind, if_neg (by simp only [List.length_append, two]; omega), bytes]
  simp only [raiseIf_bind]

/-- R199: another format type than 0xA. -/
theorem decodeBody_badType {f : Byte} (g : Byte) (y : List Byte) (type : f.extractLsb' 4 4 ≠ 0xA#4) :
    Raises (decodeBody dr sr ([f, g] ++ y)) 14 (f ++ g).toNat 0 := by
  rw [decodeBody_format rfl]
  exact (formatFields_badType g type).bind

/-- R199: the declared length is not the observed one. -/
theorem decodeBody_badLength {format y : List Byte} {decl : Nat} {seg : Bool} (two : format.length = 2)
    (fields : formatFields (fromBE format) = .ok (decl, seg)) (wrong : decl ≠ (format ++ y).length) :
    Raises (decodeBody dr sr (format ++ y)) 3 decl (format ++ y).length := by
  rw [decodeBody_format two, fields, ok_bind]
  dsimp only
  rw [if_pos wrong]
  exact ⟨_, rfl, rfl, rfl, rfl⟩

/-- R199: a format field with the right type and length is followed by the destination. -/
theorem decodeBody_destination {format y : List Byte} {seg : Bool} (two : format.length = 2)
    (fields : formatFields (fromBE format) = .ok ((format ++ y).length, seg)) :
    decodeBody dr sr (format ++ y) =
      addrdec (format ++ y) 2 dr >>= fun (dd, dn) => addrdec (format ++ y) (2 + dn) sr >>= fun (sd, sn) =>
        decodeContent (format ++ y) (2 + dn + sn + 1) seg dd sd := by
  rw [decodeBody_format two, fields, ok_bind]
  dsimp only
  rw [if_neg (not_not.mpr rfl)]

/-- What remains of a body after its format field. -/
theorem remaining_format {format : List Byte} (two : format.length = 2) (y : List Byte) :
    Remaining (format ++ y) 2 y := by
  have rest := (Remaining.zero (format ++ y)).after
  rwa [two] at rest

/-- R199: the source follows a destination of the role. -/
theorem decodeBody_source {format dst y : List Byte} {seg : Bool} {dd : Word} (two : format.length = 2)
    (hd : AddrForm dr dst dd) (fields : formatFields (fromBE format) = .ok ((format ++ (dst ++ y)).length, seg)) :
    decodeBody dr sr (format ++ (dst ++ y)) = addrdec (format ++ (dst ++ y)) (2 + dst.length) sr >>= fun (sd, sn) =>
      decodeContent (format ++ (dst ++ y)) (2 + dst.length + sn + 1) seg dd sd := by
  rw [decodeBody_destination two fields, addrdec_form hd (remaining_format two _), ok_bind]

/-- R199: the content follows a source of the role. -/
theorem decodeBody_content {format dst src y : List Byte} {seg : Bool} {dd sd : Word} (two : format.length = 2)
    (hd : AddrForm dr dst dd) (hs : AddrForm sr src sd)
    (fields : formatFields (fromBE format) = .ok ((format ++ (dst ++ (src ++ y))).length, seg)) :
    decodeBody dr sr (format ++ (dst ++ (src ++ y))) =
      decodeContent (format ++ (dst ++ (src ++ y))) (2 + dst.length + src.length + 1) seg dd sd := by
  rw [decodeBody_source two hd fields, addrdec_form hs (remaining_format two _).after, ok_bind]

end Body

section Content

variable {seg : Bool} {dd sd : Word}

theorem decodeContent_short {b : List Byte} {h : Nat} (short : b.length < h + 2) :
    Raises (decodeContent b h seg dd sd) 1 (h + 2) b.length := by
  rw [decodeContent, raiseIf_bind, if_pos short]
  exact raises_insufficientData _ _

/-- R199: three or four bytes are neither an FCS alone nor an HCS, information and an FCS. -/
theorem decodeContent_misfit {b : List Byte} {h n : Nat} (misfit : n = 3 ∨ n = 4) (size : b.length = h + n) :
    Raises (decodeContent b h seg dd sd) 14 n 0 := by
  have rest : b.length - h = n := by omega
  rw [decodeContent, raiseIf_bind, if_neg (by omega)]
  dsimp only
  rw [rest, raiseIf_bind, if_pos misfit]
  exact raises_malformed n

/-- R199: two bytes after the header are the FCS. -/
theorem decodeContent_bare {hdr fcs : List Byte} {ctl : Byte} (two : fcs.length = 2)
    (control : byteAt (hdr ++ fcs) (hdr.length - 1) = ctl) :
    decodeContent (hdr ++ fcs) hdr.length seg dd sd =
      checkCrc 1 hdr fcs >>= fun _ => decodeInfo ctl false [] seg dd sd (hdr ++ fcs).length := by
  have size : (hdr ++ fcs).length = hdr.length + 2 := by rw [List.length_append, two]
  have header : bytesAt (hdr ++ fcs) 0 hdr.length = hdr := (Remaining.zero _).bytesAt_eq
  have sequence := bytesAt_middle hdr fcs []
  rw [List.append_nil, two] at sequence
  rw [decodeContent, size, raiseIf_bind, if_neg (by omega)]
  dsimp only
  rw [Nat.add_sub_cancel_left, raiseIf_bind, if_neg (by decide), if_neg (by decide), ok_bind, Nat.add_sub_cancel,
    header, sequence, control]
  rfl

/-- R199: five bytes or more after the header are the HCS, the information and the FCS. -/
theorem decodeContent_info {hdr hcs info fcs : List Byte} {ctl : Byte} (two : hcs.length = 2) (two' : fcs.length = 2)
    (some : info ≠ []) (control : byteAt (hdr ++ hcs ++ info ++ fcs) (hdr.length - 1) = ctl) :
    decodeContent (hdr ++ hcs ++ info ++ fcs) hdr.length seg dd sd =
      checkCrc 0 hdr hcs >>= fun _ => checkCrc 1 (hdr ++ hcs ++ info) fcs >>= fun _ =>
        decodeInfo ctl true info seg dd sd (hdr ++ hcs ++ info ++ fcs).length := by
  have present : 0 < info.length := List.length_pos_iff.mpr some
  have size : (hdr ++ hcs ++ info ++ fcs).length = hdr.length + (info.length + 4) := by
    simp only [List.length_append, two, two']
    omega
  have start : (hdr ++ hcs).length = hdr.length + 2 := by rw [List.length_append, two]
  have stop : (hdr ++ hcs ++ info).length = hdr.length + (info.length + 4) - 2 := by
    rw [List.length_append, start]
    omega
  have width : hdr.length + (info.length + 4) - 2 - (hdr.length + 2) = info.length := by omega
  have header : bytesAt (hdr ++ hcs ++ info ++ fcs) 0 hdr.length = hdr := by
    rw [List.append_assoc, List.append_assoc]
    exact (Remaining.zero _).bytesAt_eq
  have check := bytesAt_middle hdr hcs (info ++ fcs)
  have covered := (Remaining.zero (hdr ++ hcs ++ info ++ fcs)).bytesAt_eq
  have payload := bytesAt_middle (hdr ++ hcs) info fcs
  have final := bytesAt_middle (hdr ++ hcs ++ info) fcs []
  rw [← List.append_assoc, two] at check
  rw [stop] at covered
  rw [start] at payload
  rw [List.append_nil, stop, two'] at final
  have enough : info.length + 4 ≥ 5 := by omega
  rw [decodeContent, size, raiseIf_bind, if_neg (by omega)]
  dsimp only
  rw [Nat.add_sub_cancel_left, raiseIf_bind, if_neg (by omega), decide_eq_true enough, if_pos rfl, if_pos rfl, header,
    check, covered, final, width, payload, control]

end Content

/-! ### Check sequences -/

theorem checkCrc_right {α : Type} {role : Nat} {covered received : List Byte} {f : Unit → Except CmdError α}
    (right : received = crc16 covered false) : (checkCrc role covered received >>= f) = f () := by
  rw [checkCrc, raiseIf_bind, if_neg (not_not.mpr right.symm)]

theorem checkCrc_wrong {α : Type} {role : Nat} {covered received : List Byte} {f : Unit → Except CmdError α}
    (wrong : received ≠ crc16 covered false) :
    Raises (checkCrc role covered received >>= f) 4 (2 ^ 16 * role + fromBE (crc16 covered false))
      (fromBE received) := by
  rw [checkCrc, raiseIf_bind, if_pos wrong.symm]
  exact ⟨_, rfl, rfl, rfl, rfl⟩

/-! ### The information field -/

/-- R197: the check of H.FRMDEC is the one the table of R197 asks for. -/
theorem infoMisfit_iff {ty : FrameType} {info : List Byte} :
    infoMisfit ty (decide (info ≠ [])) = true ↔ ¬ InfoFits ty info := by
  cases ty <;> simp [InfoFits, infoMisfit]

/-- R195, R199: the LLC header that is stripped, if any. -/
theorem stripLlc_eq {ty : FrameType} {info out : List Byte} {kind : Nat} (h : StripsTo ty info out kind) :
    stripLlc ty info = (out, kind) := by
  obtain ⟨rfl, rfl, rfl⟩ | ⟨rfl, rfl, rfl⟩ | ⟨none, rfl, rfl⟩ := h
  · rfl
  · rfl
  · have command : ¬ (ty = .info ∧ out.take 3 = llcCommand) := fun ⟨it, c⟩ => none.elim (· it) (·.1 c)
    have response : ¬ (ty = .info ∧ out.take 3 = llcResponse) := fun ⟨it, r⟩ => none.elim (· it) (·.2 r)
    rw [stripLlc, if_neg command, if_neg response]

theorem stripsTo_kind_lt {ty : FrameType} {info out : List Byte} {kind : Nat} (h : StripsTo ty info out kind) :
    kind < 4 := by
  obtain ⟨-, -, rfl⟩ | ⟨-, -, rfl⟩ | ⟨-, -, rfl⟩ := h <;> decide

/-- R190: SEG, LLCDIR and the bits above them are 0 in the descriptor of a control byte. -/
theorem ctlForm_small {b : Byte} {ty : FrameType} {d : Word} (h : CtlForm b ty d) : d.toNat < 2 ^ 13 := by
  obtain ⟨ns, nr, pf, hs, hr, -, -, rfl⟩ := ctlForm_iff.mp h
  have hty := ty.code_lt
  have hpf := pf.toNat_lt
  rw [controlDescriptor, BitVec.toNat_ofNat]
  omega

/-- R199: SEG and the LLC kind stand above the descriptor of the control byte. -/
theorem or_segKind_eq_add {d : Word} (small : d.toNat < 2 ^ 13) (seg : Bool) {kind : Nat} (hk : kind < 4) :
    d ||| BitVec.ofNat 32 (2 ^ 13 * seg.toNat + 2 ^ 16 * kind)
      = d + BitVec.ofNat 32 (0x2000 * seg.toNat + 0x10000 * kind) := by
  have hseg := seg.toNat_lt
  have high : (BitVec.ofNat 32 (2 ^ 13 * seg.toNat + 2 ^ 16 * kind)).toNat = (seg.toNat + 8 * kind) <<< 13 := by
    rw [BitVec.toNat_ofNat, Nat.shiftLeft_eq]
    omega
  have disjoint : (d ||| BitVec.ofNat 32 (2 ^ 13 * seg.toNat + 2 ^ 16 * kind)).toNat
      = (seg.toNat + 8 * kind) <<< 13 + d.toNat := by
    rw [BitVec.toNat_or, high, Nat.lor_comm, ← Nat.shiftLeft_add_eq_or_of_lt small]
  apply BitVec.eq_of_toNat_eq
  rw [disjoint, BitVec.toNat_add, BitVec.toNat_ofNat, Nat.shiftLeft_eq]
  omega

section DecodeInfo

variable {ctl : Byte} {hp seg : Bool} {info out : List Byte} {dd sd cd : Word} {len kind : Nat} {ty : FrameType}

/-- R199: what comes back when the type may carry the information. -/
theorem decodeInfo_fits (form : CtlForm ctl ty cd) (fits : InfoFits ty info) (strips : StripsTo ty info out kind) :
    decodeInfo ctl (decide (info ≠ [])) info seg dd sd len = .ok {
      out := out, consumed := len + 2, r0 := dd, r1 := sd
      r2 := cd + BitVec.ofNat 32 (0x2000 * seg.toNat + 0x10000 * kind)
      r3 := BitVec.ofNat 32 (len + (if info = [] then 0 else 0x10000)) } := by
  have flag : 2 ^ 16 * (decide (info ≠ [])).toNat = if info = [] then 0 else 0x10000 := by
    cases info <;> rfl
  rw [decodeInfo, ctldec_form form, ok_bind]
  dsimp only
  rw [raiseIf_bind, if_neg (mt infoMisfit_iff.mp (not_not.mpr fits)), stripLlc_eq strips]
  dsimp only
  rw [or_segKind_eq_add (ctlForm_small form) seg (stripsTo_kind_lt strips), flag]

theorem decodeInfo_unknown (unknown : ∀ ty d, ¬ CtlForm ctl ty d) :
    Raises (decodeInfo ctl hp info seg dd sd len) 6 ctl.toNat 0 := (ctldec_unknown unknown).bind

theorem decodeInfo_misfit (form : CtlForm ctl ty cd) (misfit : ¬ InfoFits ty info) :
    Raises (decodeInfo ctl (decide (info ≠ [])) info seg dd sd len) 14 ctl.toNat 0 := by
  rw [decodeInfo, ctldec_form form, ok_bind]
  dsimp only
  rw [raiseIf_bind, if_pos (infoMisfit_iff.mpr misfit)]
  exact raises_malformed _

end DecodeInfo

/-! ### Whole frames -/

section Frame

variable {dr sr : Role} {dst src info : List Byte} {dd sd : Word} (hd : AddrForm dr dst dd) (hs : AddrForm sr src sd)
  (fits : bodyLength dst src info ≤ 2047) (ctl : Byte) (seg : Bool)

theorem headerBytes_length : (headerBytes seg dst src ctl info).length = 2 + dst.length + src.length + 1 := by
  simp only [headerBytes_eq, List.length_append, beBytes_length, List.length_singleton]

/-- R194: the header ends with the control byte. -/
theorem byteAt_headerBytes (tail : List Byte) :
    byteAt (headerBytes seg dst src ctl info ++ tail) ((headerBytes seg dst src ctl info).length - 1) = ctl := by
  rw [headerBytes, List.length_append, List.length_singleton, Nat.add_sub_cancel, List.append_assoc]
  exact byteAt_middle _ ctl tail

include hd hs fits

/-- R199: the rule reads the header of a frame of the right length. -/
theorem frmdecRule_header {tail : List Byte}
    (size : (headerBytes seg dst src ctl info ++ tail).length = bodyLength dst src info) :
    frmdecRule dr sr ([0x7E] ++ (headerBytes seg dst src ctl info ++ tail) ++ [0x7E]) =
      decodeContent (headerBytes seg dst src ctl info ++ tail) (headerBytes seg dst src ctl info).length seg dd sd := by
  have parts : headerBytes seg dst src ctl info ++ tail
      = beBytes 2 (formatField seg (bodyLength dst src info)) ++ (dst ++ (src ++ ([ctl] ++ tail))) := by
    simp only [headerBytes_eq, List.append_assoc]
  have small : formatField seg (bodyLength dst src info) < 2 ^ (8 * 2) := by
    have := seg.toNat_lt
    rw [formatField]
    omega
  have fields : formatFields (fromBE (beBytes 2 (formatField seg (bodyLength dst src info)))) =
      .ok (bodyLength dst src info, seg) := by
    rw [fromBE_beBytes_of_lt small, formatFields_formatField seg (by omega)]
  rw [parts] at size
  rw [frmdecRule_flagged, headerBytes_length, parts]
  exact decodeBody_content (beBytes_length _ _) hd hs (by rw [fields, size])

/-- R199: without information the FCS alone is checked. -/
theorem frmdecRule_bare {fcs : List Byte} (two : fcs.length = 2) (none : info = []) :
    frmdecRule dr sr ([0x7E] ++ (headerBytes seg dst src ctl info ++ fcs) ++ [0x7E]) =
      checkCrc 1 (headerBytes seg dst src ctl info) fcs >>= fun _ =>
        decodeInfo ctl false [] seg dd sd (bodyLength dst src info) := by
  have size : (headerBytes seg dst src ctl info ++ fcs).length = bodyLength dst src info := by
    rw [List.length_append, headerBytes_length, two, bodyLength, none, if_pos rfl, List.length_nil]
    omega
  rw [frmdecRule_header hd hs fits ctl seg size, decodeContent_bare two (byteAt_headerBytes ctl seg fcs), size]

/-- R199: with information the HCS is checked first, then the FCS. -/
theorem frmdecRule_info {hcs fcs : List Byte} (two : hcs.length = 2) (two' : fcs.length = 2) (some : info ≠ []) :
    frmdecRule dr sr ([0x7E] ++ (headerBytes seg dst src ctl info ++ hcs ++ info ++ fcs) ++ [0x7E]) =
      checkCrc 0 (headerBytes seg dst src ctl info) hcs >>= fun _ =>
        checkCrc 1 (headerBytes seg dst src ctl info ++ hcs ++ info) fcs >>= fun _ =>
          decodeInfo ctl true info seg dd sd (bodyLength dst src info) := by
  have assoc : headerBytes seg dst src ctl info ++ hcs ++ info ++ fcs
      = headerBytes seg dst src ctl info ++ (hcs ++ info ++ fcs) := by simp only [List.append_assoc]
  have size : (headerBytes seg dst src ctl info ++ hcs ++ info ++ fcs).length = bodyLength dst src info := by
    simp only [List.length_append, headerBytes_length, two, two', bodyLength, if_neg some]
    omega
  have control : byteAt (headerBytes seg dst src ctl info ++ hcs ++ info ++ fcs)
      ((headerBytes seg dst src ctl info).length - 1) = ctl := by
    rw [assoc]
    exact byteAt_headerBytes ctl seg _
  rw [assoc, frmdecRule_header hd hs fits ctl seg (assoc ▸ size), ← assoc, decodeContent_info two two' some control,
    size]

/-- R199: a frame whose check sequences are right is decoded by its control byte and information. -/
theorem frmdecRule_frameBytes :
    frmdecRule dr sr (frameBytes seg dst src ctl info) =
      decodeInfo ctl (decide (info ≠ [])) info seg dd sd (bodyLength dst src info) := by
  by_cases none : info = []
  · have read := frmdecRule_bare hd hs fits ctl seg (crc16_length (headerBytes seg dst src ctl info) false) none
    rw [checkCrc_right rfl] at read
    rw [decide_eq_false (not_not.mpr none)]
    subst none
    simpa only [frameBytes, coveredBytes, if_true, List.append_assoc] using read
  · have covered : coveredBytes seg dst src ctl info =
        headerBytes seg dst src ctl info ++ crc16 (headerBytes seg dst src ctl info) false ++ info := if_neg none
    have read := frmdecRule_info hd hs fits ctl seg (crc16_length (headerBytes seg dst src ctl info) false)
      (crc16_length (coveredBytes seg dst src ctl info) false) none
    rw [checkCrc_right rfl, checkCrc_right (congrArg (crc16 · false) covered)] at read
    rw [decide_eq_true none]
    simpa only [frameBytes, coveredBytes, if_neg none, List.append_assoc] using read

end Frame

/-- R194: the flags stand around the body. -/
theorem frameBytes_length (seg : Bool) (dst src : List Byte) (ctl : Byte) (info : List Byte) :
    (frameBytes seg dst src ctl info).length = bodyLength dst src info + 2 := by
  simp only [frameBytes, coveredBytes, bodyLength, apply_ite List.length, List.length_append, headerBytes_length,
    crc16_length, List.length_singleton]
  split_ifs with none
  · simp only [none, List.length_nil]
    omega
  · omega

/-- Settles O56: the frame's control byte and information are decoded (`frmdecRule_frameBytes`). -/
theorem frmDecReadsTheFrame : Obligations.FrmDecReadsTheFrame := by
  intro s dr sr dst src info out dd sd cd ctl ty seg kind legal hd hs form fits strips short input
  refine exec_gives legal ?_
  have size : s.input.length = bodyLength dst src info + 2 := by rw [input, frameBytes_length]
  rw [size, ruleOf, input, frmdecRule_frameBytes hd hs short, decodeInfo_fits form fits strips]

/-- Settles O59: with right check sequences the control byte and the information decide (`frmdecRule_frameBytes`). -/
theorem frmDecContentErrors : Obligations.FrmDecContentErrors := by
  intro s dr sr dst src info dd sd ctl seg legal hd hs short input
  refine ⟨fun unknown => failsWith_of_raises legal ?_, fun ty cd form misfit => failsWith_of_raises legal ?_⟩ <;>
    rw [ruleOf, input, frmdecRule_frameBytes hd hs short]
  · exact decodeInfo_unknown unknown
  · exact decodeInfo_misfit form misfit

/-- Settles O58: an HCS is checked first, then the FCS (`frmdecRule_info`), without information the FCS alone
(`frmdecRule_bare`). -/
theorem frmDecChecksumErrors : Obligations.FrmDecChecksumErrors := by
  intro s dr sr dst src info dd sd ctl h1 h2 f1 f2 seg legal hd hs short hdr
  refine ⟨fun some input wrong => failsWith_of_raises legal ?_, fun input wrong => failsWith_of_raises legal ?_⟩
  · have frame : s.input = [0x7E] ++ (hdr ++ [h1, h2] ++ info ++ [f1, f2]) ++ [0x7E] := by
      simp only [input, List.append_assoc]
    rw [ruleOf, frame, frmdecRule_info hd hs short ctl seg rfl rfl some, ← fromBE_pair]
    have bad := checkCrc_wrong (role := 0) (f := fun _ => checkCrc 1 (hdr ++ [h1, h2] ++ info) [f1, f2] >>= fun _ =>
          decodeInfo ctl true info seg dd sd (bodyLength dst src info)) wrong
    rwa [Nat.mul_zero, Nat.zero_add] at bad
  · rw [ruleOf, ← fromBE_pair]
    by_cases none : info = []
    · have covered : coveredBytes seg dst src ctl info = hdr := if_pos none
      have frame : s.input = [0x7E] ++ (hdr ++ [f1, f2]) ++ [0x7E] := by
        simp only [input, covered, List.append_assoc]
      rw [frame, frmdecRule_bare hd hs short ctl seg rfl none, covered]
      exact checkCrc_wrong (by rwa [covered] at wrong)
    · have covered : coveredBytes seg dst src ctl info = hdr ++ crc16 hdr false ++ info := if_neg none
      have frame : s.input = [0x7E] ++ (hdr ++ crc16 hdr false ++ info ++ [f1, f2]) ++ [0x7E] := by
        simp only [input, covered, List.append_assoc]
      rw [frame, frmdecRule_info hd hs short ctl seg (crc16_length _ _) rfl none, checkCrc_right rfl, covered]
      exact checkCrc_wrong (by rwa [covered] at wrong)

/-- Settles O57: each clause is a check of the rule, or a fault of `addrdec` in the body, after those before it pass. -/
theorem frmDecFramingErrors : Obligations.FrmDecFramingErrors := by
  intro s dr sr legal
  have flags {x : List Byte} {n : Nat} (input : s.input = x) (missing : missingFlags x = n) (some : n ≠ 0) :
      FailsWith (.hFrmdec dr sr) s 5 n 0 := by
    refine failsWith_of_raises legal ?_
    have raised := frmdecRule_missing (dr := dr) (sr := sr) (missing.trans_ne some)
    rwa [missing, ← input] at raised
  refine ⟨fun empty => flags empty rfl (by decide), fun b input =>
    flags input (missingFlags_singleton b) (by split <;> decide),
    fun b c body input => ⟨fun bad => flags input (missingFlags_flanked b c body) ?_, fun hb hc => ?_⟩⟩
  · rcases bad with hb | hc
    · rw [if_neg hb]
      omega
    · rw [if_neg hc]
      omega
  subst hb hc
  have fail {code : Byte} {d0 d1 : Nat} (raised : Raises (decodeBody dr sr body) code d0 d1) :
      FailsWith (.hFrmdec dr sr) s code d0 d1 := by
    refine failsWith_of_raises legal ?_
    rwa [ruleOf, input, frmdecRule_flagged]
  refine ⟨fun short => fail (decodeBody_short short), ?_⟩
  rintro f g rest rfl
  refine ⟨fun type => fail (decodeBody_badType g rest type),
    fun type wrong => fail (decodeBody_badLength rfl (formatFields_bytes g type) wrong), fun type length => ?_⟩
  have fields : formatFields (fromBE [f, g]) = .ok (([f, g] ++ rest).length, f.getLsbD 3) := by
    rw [formatFields_bytes g type, length]
  refine ⟨fun code d0 d1 fault => fail ?_, ?_⟩
  · rw [decodeBody_destination rfl fields]
    exact (addrdec_fault fault (remaining_format rfl rest)).bind
  rintro dst x dd hd rfl
  refine ⟨fun code d0 d1 fault => fail ?_, ?_⟩
  · rw [decodeBody_source rfl hd fields]
    exact (addrdec_fault fault (remaining_format rfl _).after).bind
  rintro src y sd hs rfl
  refine ⟨fun short => fail ?_, fun misfit => fail ?_⟩ <;> rw [decodeBody_content rfl hd hs fields]
  · refine decodeContent_short ?_
    simp only [List.length_append, List.length_cons, List.length_nil]
    omega
  · refine decodeContent_misfit (by omega) ?_
    simp only [List.length_append, List.length_cons, List.length_nil]
    omega

/-! ### The round trip -/

/-- R198: what H.FRMENC checked, and the frame it made. -/
theorem frmencRule_ok {ad as c : Word} {x : List Byte} {r : Result} (h : frmencRule ad as c x = .ok r) :
    ∃ dst src ctl ty info, addrbytes 0 ad = .ok dst ∧ addrbytes 1 as = .ok src ∧ NamesControl c ctl ty ∧
      EncodesInfo ty c x info ∧ bodyLength dst src info ≤ 2047 ∧
      r.out = frameBytes (c.getLsbD 13) dst src ctl info := by
  obtain ⟨dst, hd, h1⟩ := bind_ok h
  obtain ⟨src, hs, h2⟩ := bind_ok h1
  obtain ⟨⟨ty, ctl⟩, hc, -⟩ := bind_ok h2
  have named := ctlbyte_ok_iff.mp hc
  rw [frmencRule_named (namesAddress_of_addrbytes hd) (namesAddress_of_addrbytes hs) named] at h
  obtain ⟨info, hi, h⟩ := bind_ok h
  split at h
  · cases h
  · next fits =>
    cases h
    exact ⟨dst, src, ctl, ty, info, hd, hs, named, frameInfo_eq_ok.mp hi, Nat.not_lt.mp fits, rfl⟩

/-- R195, R200: the LLC kind of what H.FRMENC made of the control descriptor `c`. -/
def encodedKind (ty : FrameType) (c : Word) : Nat := if ty = .info then (if c.getLsbD 14 then 2 else 1) else 0

/-- R195, R197: the information that H.FRMENC makes is one its type may carry, and strips to the payload. -/
theorem encodesInfo_strips {ty : FrameType} {c : Word} {x info : List Byte} (h : EncodesInfo ty c x info) :
    InfoFits ty info ∧ StripsTo ty info x (encodedKind ty c) := by
  cases ty with
  | snrm | disc | rr =>
    obtain ⟨rfl, rfl⟩ := h
    exact ⟨rfl, .inr (.inr ⟨.inl nofun, rfl, rfl⟩)⟩
  | ua =>
    obtain rfl := h
    exact ⟨trivial, .inr (.inr ⟨.inl nofun, rfl, rfl⟩)⟩
  | info =>
    rw [EncodesInfo] at h
    rw [encodedKind, if_pos rfl]
    by_cases response : c.getLsbD 14 = true
    · rw [if_pos response] at h ⊢
      exact ⟨h ▸ List.cons_ne_nil _ _, .inr (.inl ⟨rfl, h, rfl⟩)⟩
    · rw [if_neg response] at h ⊢
      exact ⟨h ▸ List.cons_ne_nil _ _, .inl ⟨rfl, h, rfl⟩⟩

/-- R184, R200: the descriptor that comes back, LEN aside, is the operand, with PHYSICAL 0 when P = 0. -/
theorem decodedAddress_ignoreLen {a : Word} {n : Nat} (clear : ReservedClear a) (small : n < 8) :
    decodedAddress a n &&& 0xF8FFFFFF#32 = a &&& (if a.getLsbD 15 then 0x0003FFFF#32 else 0x000380FF#32) := by
  obtain ⟨top, reserved, bit7⟩ := clear
  obtain ⟨logical, bit7', physical, flags, reserved', -, top'⟩ := bitsOf_decodedAddress a small
  by_cases p : a.getLsbD 15 = true
  · have used : usedPhysical a = bitsOf a 8 7 := if_pos p
    rw [if_pos p]
    apply addressFields_ext <;> simp (disch := decide) only [bitsOf_and_ones, bitsOf_and_zeros, *]
  · have unused : usedPhysical a = 0 := if_neg p
    rw [if_neg p]
    apply addressFields_ext <;> simp (disch := decide) only [bitsOf_and_ones, bitsOf_and_zeros, *]

/-- R200: LEN is the number of bytes. -/
theorem decodedAddress_len (a : Word) {n : Nat} (small : n < 8) :
    (decodedAddress a n).extractLsb' 24 3 = BitVec.ofNat 3 n := by
  obtain ⟨-, -, -, -, -, len, -⟩ := bitsOf_decodedAddress a small
  apply BitVec.eq_of_toNat_eq
  rw [BitVec.toNat_ofNat, Nat.mod_eq_of_lt small]
  exact len

/-- R200: SEG stays where it was. -/
theorem keepSeg_eq (c : Word) :
    c &&& 0xFFFFBFFF#32 = (c &&& 0xFFFF9FFF#32) + BitVec.ofNat 32 (0x2000 * (c.getLsbD 13).toNat) := by
  have kept := toNat_controlFields (c &&& 0xFFFFBFFF#32)
  have cleared := toNat_controlFields (c &&& 0xFFFF9FFF#32)
  rw [bitsOf_add _ 13 1 1] at kept
  simp (disch := decide) only [bitsOf_and_ones, bitsOf_and_zeros] at kept cleared
  have bound := (c &&& 0xFFFFBFFF#32).isLt
  have sum : (c &&& 0xFFFFBFFF#32).toNat = (c &&& 0xFFFF9FFF#32).toNat + 0x2000 * (c.getLsbD 13).toNat := by
    rw [kept, cleared, bitsOf_one c 13]
    ring
  apply BitVec.eq_of_toNat_eq
  rw [BitVec.toNat_add, BitVec.toNat_ofNat, Nat.add_mod_mod, ← sum, Nat.mod_eq_of_lt bound]

/-- R190, R199: the LLC kind of an I-frame stands in bits 17:16. -/
theorem encodedKind_eq {c : Word} {ctl : Byte} {ty : FrameType} (hc : NamesControl c ctl ty) :
    BitVec.ofNat 32 (0x10000 * encodedKind ty c) =
      if c.extractLsb' 0 3 = 4#3 then (if c.getLsbD 14 then 0x20000#32 else 0x10000#32) else 0 := by
  obtain ⟨ns, nr, pf, hs, hr, -, -, same⟩ := ctlForm_iff.mp hc
  obtain ⟨-, type, -, -, -⟩ := (controlMask_iff c ty pf hs hr).mp same
  have code : c.extractLsb' 0 3 = BitVec.ofNat 3 ty.code := by
    rw [← type, bitsOf, BitVec.ofNat_toNat, BitVec.setWidth_eq]
  rw [code, encodedKind]
  cases ty <;> cases c.getLsbD 14 <;> rfl

/-- Settles O60: what H.FRMENC made is a frame of the forms that its descriptors name (`frmencRule_ok`), which
H.FRMDEC reads (`frmdecRule_frameBytes`). -/
theorem frameRoundTrip : Obligations.FrameRoundTrip := by
  intro ad as c x r h role back
  obtain ⟨dst, src, ctl, ty, info, hd, hs, hc, hi, fits, out⟩ := frmencRule_ok h
  obtain ⟨dclear, dform⟩ := addrForm_of_addrbytes hd
  obtain ⟨sclear, sform⟩ := addrForm_of_addrbytes hs
  obtain ⟨allowed, strips⟩ := encodesInfo_strips hi
  have dlen := addrForm_length_lt dform
  have slen := addrForm_length_lt sform
  have read := (frmdecRule_frameBytes dform sform fits ctl (c.getLsbD 13)).trans (decodeInfo_fits hc allowed strips)
  rw [← frameBytes_length (c.getLsbD 13) dst src ctl info, ← out] at read
  refine ⟨_, read, rfl, rfl, decodedAddress_ignoreLen dclear dlen, decodedAddress_ignoreLen sclear slen,
    ⟨dst, hd, decodedAddress_len ad dlen⟩, ⟨src, hs, decodedAddress_len as slen⟩, ?_⟩
  rw [keepSeg_eq, BitVec.ofNat_add, ← BitVec.add_assoc, encodedKind_eq hc]

end Sys2Proof.Machine
end

/-! PROOF. The statement of 44_system.md: NOP (O28). -/
section

namespace Sys2Proof.Machine

/-- R245: a commit sets DONE, so the line is then CTRL.IE, which a command keeps. -/
theorem irq_of_committed {s t : State} {r : Result} (h : Committed s t r) : t.irq = s.ie := by
  rw [State.irq, h.done, h.same.ie, Bool.and_true]

/-- Settles O28: NOP's rule is the empty result, which always fits (`exec_succeeds`). -/
theorem nopOnlyCompletes : Obligations.NopOnlyCompletes := by
  intro s legal
  have rule : ruleOf .nop s = .ok {} := rfl
  obtain ⟨t, ht, committed⟩ := exec_succeeds legal rule rfl
  exact ⟨t, ht, committed, irq_of_committed committed⟩

end Sys2Proof.Machine
end

/-! PROOF. The statement of 60_exceptions.md: IRQ = IE and DONE, and when it rises and falls (O25). -/
section

namespace Sys2Proof.Machine

/-! ### IRQ after each operation that changes IE or DONE -/

section
variable (s : State)

/-- R242: an error completion sets DONE, so the line is then CTRL.IE. -/
@[simp] theorem irq_failWith (e : CmdError) : (failWith e s).irq = s.ie := by simp [State.irq]

/-- R38: a commit sets DONE too. -/
@[simp] theorem irq_commit (r : Result) : (commit r s).irq = s.ie := irq_of_committed (committed_commit r s)

@[simp] theorem irq_writeCtrl (v : Word) : (writeCtrl v s).irq = (v.getLsbD 0 && s.done) := by simp [State.irq]

/-- R24: a write to STATUS with bit 1 set clears DONE. -/
theorem irq_clearStatus {v : Word} (clear : v.getLsbD 1 = true) : (clearStatus v s).irq = false := by
  simp [State.irq, clear]

/-- R37: acceptance clears DONE. -/
@[simp] theorem irq_accept (w : Word) : (accept w s).irq = false := by simp [State.irq]

@[simp] theorem irq_softReset : (softReset s).irq = false := by simp [State.irq]

@[simp] theorem irq_powerOnReset : (powerOnReset s).irq = false := by simp [State.irq]

end

/-- R242, R245: every completion, of an illegal word too, leaves the line at CTRL.IE. -/
theorem irq_engineTurn {s t : State} (hb : s.busy = true) (ht : engineTurn s = .next t) : t.irq = s.ie := by
  rcases engineTurn_cases s with ⟨idle, -⟩ | ⟨w, i, -, -, e⟩ | ⟨w, d, -, -, e⟩
  · simp [(not_busy_iff s).mpr idle] at hb
  · rcases exec_cases i s with ⟨err, he⟩ | ⟨r, -, -, -, he⟩ <;> cases (e.trans he).symm.trans ht
    · exact irq_failWith s err
    · exact irq_commit s r
  · cases e.symm.trans ht
    exact irq_failWith s _

/-- Settles O25: IRQ is IE and DONE by definition; a completion sets DONE (`irq_engineTurn`), and each other clause is
one operation of the host's or a power-on. -/
theorem irqFollowsEnableAndDone : Obligations.IrqFollowsEnableAndDone := by
  refine ⟨fun s => by simp [State.irq], fun s t => irq_engineTurn, fun s t rest v hb srst hi ht => ?_,
    fun s t rest v clear hi ht => ?_, fun s t rest w hb hi ht => ?_, fun s t rest v srst hi ht => ?_,
    fun s t rest hi ht => ?_⟩
  · cases (step_writeReg (r := .ctrl) hi rfl).symm.trans ht
    have idle : State.busy { s with inputs := rest } = false := hb
    rw [writeReg_ctrl srst, unlessBusy_idle idle, irq_writeCtrl]
  · cases (step_writeReg (r := .status) hi rfl).symm.trans ht
    exact irq_clearStatus _ clear
  · cases (cmdWriteIsAcceptedWhenIdle s rest w hb hi).symm.trans ht
    exact irq_accept { s with inputs := rest } w
  · cases (step_writeReg (r := .ctrl) hi rfl).symm.trans ht
    rw [writeReg_ctrl_srst srst, irq_softReset]
  · cases (step_powerOn hi).symm.trans ht
    exact irq_powerOnReset _

end Sys2Proof.Machine
end
